-- ==== Sys2Proof/Word.lean ====
section
/-!
DEFINITION. Words and the finite maps the state is made of.  A map is a list of key and value pairs with strictly
rising keys in which no entry equals the default: equal maps are equal lists.
-/

namespace Sys2Proof

abbrev Byte := BitVec 8
/-- A 64-bit register word (R3 calls it a dword). -/
abbrev Word := BitVec 64
/-- A 57-bit virtual address (R80, R141). -/
abbrev VAddr := BitVec 57
/-- A 2,048-bit vector register (R52). -/
abbrev Vec := BitVec 2048
/-- A 256-bit lane mask (R196). -/
abbrev Mask := BitVec 256

/-- A finite map from numbers, keys strictly rising. -/
abbrev KV (α : Type) := List (Nat × α)

namespace KV

/-- The value at a key, or the default where the map lists none. -/
def get {α : Type} (d : α) : KV α → Nat → α
  | [], _ => d
  | (k, x) :: rest, j => if j = k then x else get d rest j

/-- The value at a key where the map lists one. -/
def find {α : Type} : KV α → Nat → Option α
  | [], _ => none
  | (k, x) :: rest, j => if j = k then some x else find rest j

/-- Removes the entries of a key. -/
def erase {α : Type} : KV α → Nat → KV α
  | [], _ => []
  | (k, x) :: rest, j => if j = k then erase rest j else (k, x) :: erase rest j

/-- Lists a value at a key, in key order. -/
def set {α : Type} : KV α → Nat → α → KV α
  | [], j, y => [(j, y)]
  | (k, x) :: rest, j, y =>
    if j < k then (j, y) :: (k, x) :: rest
    else if j = k then (j, y) :: rest
    else (k, x) :: set rest j y

/-- Writes a value at a key; the default is not listed. -/
def put {α : Type} [DecidableEq α] (d : α) (m : KV α) (j : Nat) (y : α) : KV α :=
  if y = d then erase m j else set m j y

/-- The canonical form: keys strictly rising above a floor, no value equal to the default. -/
def wfFrom {α : Type} [DecidableEq α] (d : α) : Option Nat → KV α → Bool
  | _, [] => true
  | lo, (k, x) :: rest => lo.all (fun l => decide (l < k)) && decide (x ≠ d) && wfFrom d (some k) rest

/-- The canonical form. -/
def wf {α : Type} [DecidableEq α] (d : α) (m : KV α) : Bool := wfFrom d none m

end KV

end Sys2Proof
end

