-- ==== Sys2Proof/Syntax.lean ====
section
/-!
DEFINITION. The instruction set as syntax: one constructor per row of spec/opcode_table.json.
Three constructors are the bundle forms of R107 and R108, then come the syllables of the nine slot maps of R117,
then the events: the steps that the table lists beside the instructions (95_what_each_step_holds.md).
Operand fields carry the spec's field names; numbers are `Nat`, one-bit flags are `Bool`, and `e` is the extension
syllable of R114 where the instruction has one.  `WellFormed` says which values the fields may take.
-/

namespace Sys2Proof

/-- One constructor per row of the opcode table.  A syllable inside a bundle is (slot number of R122, word, extension). -/
inductive Instr where
  /-- BUNDLE_ISSUE (R108): an explicit bundle with its header fields and slot syllables. -/
  | bundleIssue (rep : Nat) (seg rdv stk : Bool) (syls : List (Nat × Nat × Option Nat))
  /-- DICTIONARY_REFERENCE (R110). -/
  | dictionaryReference (rep : Nat) (seg rdv stk : Bool) (idx : Nat)
  /-- IDLE_BUNDLE (R109). -/
  | idleBundle (seg rdv : Bool) (count : Nat)
  -- branch slot B
  /-- NOP (R158). -/
  | nop
  /-- BR (R143). -/
  | br (off : Nat)
  /-- BRP (R143). -/
  | brp (p : Nat) (pn : Bool) (off : Nat)
  /-- BRR (R143). -/
  | brr (a : Nat)
  /-- CALL (R143). -/
  | call (link off : Nat)
  /-- RET (R143). -/
  | ret (a : Nat)
  /-- LOOP (R145). -/
  | loop (lvl lcn : Nat) (pin : Bool) (off : Nat)
  /-- LOOP_END (R147). -/
  | loopEnd (lvl : Nat)
  /-- ENDK (R156). -/
  | endk
  /-- BWAIT (R149). -/
  | bwait (e : Option Nat) (bar gn : Nat)
  /-- BARV (R150). -/
  | barv (e : Option Nat) (bar gn scope tset : Nat)
  /-- BINIT (R151). -/
  | binit (e : Option Nat) (bar gn : Nat)
  /-- MONWAIT (R152). -/
  | monwait (e : Option Nat) (mon gn : Nat)
  /-- GEAR (R153). -/
  | gear (gr : Nat)
  /-- GEAR_REG (R153). -/
  | gearReg (gn : Nat)
  /-- TRAP (R154). -/
  | trap (code : Nat)
  /-- BRK (R154). -/
  | brk (code : Nat)
  /-- DLCHK (R155). -/
  | dlchk (pd gn : Nat) (t : Bool)
  /-- LAUNCH (R157). -/
  | launch (a pri : Nat)
  /-- LQSTAT (R157). -/
  | lqstat (d pri : Nat)
  /-- ERET (R256). -/
  | eret
  /-- SRDP (R257). -/
  | srdp (d sr idx : Nat)
  /-- SWRP (R257). -/
  | swrp (a sr idx : Nat)
  /-- TLBINV_PAGE (R289). -/
  | tlbinvPage (a c : Nat)
  /-- TLBINV_ALL (R289). -/
  | tlbinvAll (c : Nat)
  /-- TLBINV_WB (R289). -/
  | tlbinvWb (a c : Nat)
  /-- CTXSV_CTX (R269). -/
  | ctxsvCtx (t a c : Nat)
  /-- CTXSV_CORE (R269). -/
  | ctxsvCore (t a c : Nat)
  /-- CTXLD_CTX (R269). -/
  | ctxldCtx (t a c : Nat)
  /-- CTXLD_CORE (R269). -/
  | ctxldCore (t a c : Nat)
  /-- TRCCTL_OFF (R308). -/
  | trcctlOff
  /-- TRCCTL_REC (R308). -/
  | trcctlRec (a : Nat)
  /-- TRCCTL_BIND (R308). -/
  | trcctlBind (a : Nat)
  /-- IDLE (R274). -/
  | idle
  -- scalar slots S0 and S1
  /-- ADD (R133). -/
  | add (e : Option Nat) (d a b p : Nat) (pn : Bool)
  /-- SUB (R133). -/
  | sub (e : Option Nat) (d a b p : Nat) (pn : Bool)
  /-- MUL (R133). -/
  | mul (e : Option Nat) (d a b p : Nat) (pn : Bool)
  /-- AND (R133). -/
  | and (e : Option Nat) (d a b p : Nat) (pn : Bool)
  /-- OR (R133). -/
  | or (e : Option Nat) (d a b p : Nat) (pn : Bool)
  /-- XOR (R133). -/
  | xor (e : Option Nat) (d a b p : Nat) (pn : Bool)
  /-- ANDN (R133). -/
  | andn (e : Option Nat) (d a b p : Nat) (pn : Bool)
  /-- SHL (R133). -/
  | shl (e : Option Nat) (d a b p : Nat) (pn : Bool)
  /-- SHR (R133). -/
  | shr (e : Option Nat) (d a b p : Nat) (pn : Bool)
  /-- SRA (R133). -/
  | sra (e : Option Nat) (d a b p : Nat) (pn : Bool)
  /-- ROT (R133). -/
  | rot (e : Option Nat) (d a b p : Nat) (pn : Bool)
  /-- MULH (R133). -/
  | mulh (e : Option Nat) (d a b p : Nat) (pn u : Bool)
  /-- DIV (R133). -/
  | div (e : Option Nat) (d a b p : Nat) (pn u : Bool)
  /-- REM (R133). -/
  | rem (e : Option Nat) (d a b p : Nat) (pn u : Bool)
  /-- MIN (R133). -/
  | min (e : Option Nat) (d a b p : Nat) (pn u : Bool)
  /-- MAX (R133). -/
  | max (e : Option Nat) (d a b p : Nat) (pn u : Bool)
  /-- CLZ (R134). -/
  | clz (d a p : Nat) (pn : Bool)
  /-- POPC (R134). -/
  | popc (d a p : Nat) (pn : Bool)
  /-- CMP (R135). -/
  | cmp (e : Option Nat) (pd cond a b p : Nat) (pn u : Bool)
  /-- SEL (R136). -/
  | sel (e : Option Nat) (d a b ps : Nat) (pn : Bool)
  /-- LDI (R137). -/
  | ldi (d imm : Nat)
  /-- LDI_EXT (R137). -/
  | ldiExt (e : Nat) (d : Nat)
  /-- LDI_HI (R137). -/
  | ldiHi (e : Nat) (d : Nat)
  /-- PAND (R138). -/
  | pand (pd pa pb : Nat) (na nb : Bool)
  /-- POR (R138). -/
  | por (pd pa pb : Nat) (na nb : Bool)
  /-- PXOR (R138). -/
  | pxor (pd pa pb : Nat) (na nb : Bool)
  /-- PNOT (R138). -/
  | pnot (pd pa : Nat) (na : Bool)
  /-- SRD (R139). -/
  | srd (d sr idx p : Nat) (pn : Bool)
  /-- SWR (R139). -/
  | swr (a sr idx p : Nat) (pn : Bool)
  -- address slot A
  /-- AMOV (R142). -/
  | amov (ad as : Nat) (str : Bool)
  /-- AADD (R142). -/
  | aadd (e : Option Nat) (ad as gn : Nat)
  /-- ALDI (R142). -/
  | aldi (e : Option Nat) (ad gn imm : Nat)
  /-- ASTR (R142). -/
  | astr (e : Option Nat) (ad lvl gn : Nat)
  /-- AGET (R142). -/
  | aget (d as : Nat) (ss : Bool) (lvl : Nat)
  /-- ACLR (R142). -/
  | aclr (mask : Nat) (adr : Bool)
  -- load/store slot L
  /-- LD (R161). -/
  | ld (e : Option Nat) (d an sz : Nat) (sx : Bool) (off : Nat)
  /-- ST (R161). -/
  | st (e : Option Nat) (gs an sz off : Nat)
  /-- VLD (R163). -/
  | vld (e : Option Nat) (vd an tag off : Nat)
  /-- VST (R163). -/
  | vst (e : Option Nat) (vs an tag mk off : Nat)
  /-- VLDW (R164). -/
  | vldw (e : Option Nat) (pr an tag : Nat) (blk : Bool) (off : Nat)
  /-- VSTW (R164). -/
  | vstw (e : Option Nat) (pr an tag : Nat) (blk : Bool) (off : Nat)
  /-- VGTH (R165). -/
  | vgth (e : Option Nat) (vd vi an mk tag : Nat)
  /-- VSCT (R165). -/
  | vsct (e : Option Nat) (vs vi an mk tag : Nat)
  /-- VJOIN (R166). -/
  | vjoin
  /-- PLD (R162). -/
  | pld (e : Option Nat) (md an off : Nat)
  /-- PST (R162). -/
  | pst (e : Option Nat) (ms an off : Nat)
  -- vector slots V0 and V1
  /-- VADD (R200). -/
  | vadd (e : Option Nat) (vd va vb mk ft : Nat) (u : Bool)
  /-- VSUB (R200). -/
  | vsub (e : Option Nat) (vd va vb mk ft : Nat) (u : Bool)
  /-- VMUL (R200). -/
  | vmul (e : Option Nat) (vd va vb mk ft : Nat) (u : Bool)
  /-- VMULH (R200). -/
  | vmulh (e : Option Nat) (vd va vb mk ft : Nat) (u : Bool)
  /-- VSADD (R200). -/
  | vsadd (e : Option Nat) (vd va vb mk ft : Nat) (u : Bool)
  /-- VSSUB (R200). -/
  | vssub (e : Option Nat) (vd va vb mk ft : Nat) (u : Bool)
  /-- VMIN (R200). -/
  | vmin (e : Option Nat) (vd va vb mk ft : Nat) (u : Bool)
  /-- VMAX (R200). -/
  | vmax (e : Option Nat) (vd va vb mk ft : Nat) (u : Bool)
  /-- VABS (R200). -/
  | vabs (e : Option Nat) (vd va mk ft : Nat) (u : Bool)
  /-- VNEG (R200). -/
  | vneg (e : Option Nat) (vd va mk ft : Nat) (u : Bool)
  /-- VAND (R201). -/
  | vand (e : Option Nat) (vd va vb mk ft : Nat) (u : Bool)
  /-- VOR (R201). -/
  | vor (e : Option Nat) (vd va vb mk ft : Nat) (u : Bool)
  /-- VXOR (R201). -/
  | vxor (e : Option Nat) (vd va vb mk ft : Nat) (u : Bool)
  /-- VANDN (R201). -/
  | vandn (e : Option Nat) (vd va vb mk ft : Nat) (u : Bool)
  /-- VSHL (R200). -/
  | vshl (e : Option Nat) (vd va vb mk ft : Nat) (u : Bool)
  /-- VSHR (R200). -/
  | vshr (e : Option Nat) (vd va vb mk ft : Nat) (u : Bool)
  /-- VSRA (R200). -/
  | vsra (e : Option Nat) (vd va vb mk ft : Nat) (u : Bool)
  /-- VCLZ (R200). -/
  | vclz (e : Option Nat) (vd va mk ft : Nat) (u : Bool)
  /-- VPOPC (R200). -/
  | vpopc (e : Option Nat) (vd va mk ft : Nat) (u : Bool)
  /-- VCMP (R202). -/
  | vcmp (e : Option Nat) (md va vb cond ft : Nat) (u : Bool)
  /-- VFADD (R203). -/
  | vfadd (e : Option Nat) (vd va vb mk ft : Nat)
  /-- VFSUB (R203). -/
  | vfsub (e : Option Nat) (vd va vb mk ft : Nat)
  /-- VFMUL (R203). -/
  | vfmul (e : Option Nat) (vd va vb mk ft : Nat)
  /-- VFMA (R203). -/
  | vfma (e : Nat) (vd va vb mk ft : Nat)
  /-- VFMS (R203). -/
  | vfms (e : Nat) (vd va vb mk ft : Nat)
  /-- VFNMA (R203). -/
  | vfnma (e : Nat) (vd va vb mk ft : Nat)
  /-- VFMIN (R203). -/
  | vfmin (e : Option Nat) (vd va vb mk ft : Nat)
  /-- VFMAX (R203). -/
  | vfmax (e : Option Nat) (vd va vb mk ft : Nat)
  /-- VFABS (R203). -/
  | vfabs (e : Option Nat) (vd va mk ft : Nat)
  /-- VFNEG (R203). -/
  | vfneg (e : Option Nat) (vd va mk ft : Nat)
  /-- VFCMP (R202). -/
  | vfcmp (e : Option Nat) (md va vb cond ft : Nat)
  /-- VFCLS (R204). -/
  | vfcls (e : Option Nat) (md va cls ft : Nat)
  /-- VFEXP (R205). -/
  | vfexp (e : Option Nat) (vd va mk ft : Nat)
  /-- VFSCL (R205). -/
  | vfscl (e : Option Nat) (vd va vb mk ft : Nat)
  /-- VCVT (R206). -/
  | vcvt (e : Option Nat) (vd va tt ft part : Nat) (su du : Bool)
  /-- VCVTS (R207). -/
  | vcvts (e : Option Nat) (vd va vr tt ft : Nat)
  /-- VQUANT (R208). -/
  | vquant (e : Option Nat) (vd va ct part ft : Nat)
  /-- VQUANT_BLK (R208). -/
  | vquantBlk (e : Option Nat) (vd va md ft : Nat)
  /-- VDEQ (R209). -/
  | vdeq (e : Option Nat) (vd va tt ct part : Nat)
  /-- VDEQ_BLK (R209). -/
  | vdeqBlk (e : Option Nat) (vd va tt part : Nat)
  /-- VSEL (R210). -/
  | vsel (e : Option Nat) (vd va vb mk ft : Nat) (u : Bool)
  /-- VMOV (R210). -/
  | vmov (e : Option Nat) (vd va mk ft : Nat) (u : Bool)
  /-- VBCAST (R211). -/
  | vbcast (vd gn mk ft : Nat) (u : Bool)
  /-- VBCAST_ROW (R211). -/
  | vbcastRow (e : Option Nat) (vd va idx ft : Nat)
  /-- VBCAST_COL (R211). -/
  | vbcastCol (e : Option Nat) (vd va idx ft : Nat)
  /-- VINS (R212). -/
  | vins (vd gn idx ft : Nat) (u : Bool)
  /-- VEXT (R212). -/
  | vext (e : Option Nat) (d va idx ft : Nat) (u : Bool)
  /-- VSHAPE (R213). -/
  | vshape (rc : Nat)
  /-- VTAG (R213). -/
  | vtag (e : Option Nat) (vd va tt : Nat)
  /-- VRSUM (R214). -/
  | vrsum (e : Option Nat) (vd va mk ft : Nat) (u dir : Bool)
  /-- VRMAX (R214). -/
  | vrmax (e : Option Nat) (vd va mk ft : Nat) (u dir : Bool)
  /-- VRMIN (R214). -/
  | vrmin (e : Option Nat) (vd va mk ft : Nat) (u dir : Bool)
  /-- VXRD (R215). -/
  | vxrd (e : Option Nat) (vd va vi mk md : Nat) (u : Bool)
  /-- VROT (R216). -/
  | vrot (e : Option Nat) (vd va k ft : Nat) (u : Bool)
  /-- VSPUSH (R218). -/
  | vspush (e : Option Nat) (sq va mk : Nat)
  /-- VSPOP (R218). -/
  | vspop (sq vd md : Nat)
  /-- VSPOP_END (R218). -/
  | vspopEnd (sq vd md : Nat)
  /-- VSBAL (R218). -/
  | vsbal (sqa sqb : Nat)
  /-- MAND (R219). -/
  | mand (md ma mb : Nat)
  /-- MOR (R219). -/
  | mor (md ma mb : Nat)
  /-- MXOR (R219). -/
  | mxor (md ma mb : Nat)
  /-- MNOT (R219). -/
  | mnot (md ma : Nat)
  /-- MPOPC (R219). -/
  | mpopc (d ma : Nat)
  /-- MFIRST (R219). -/
  | mfirst (d ma : Nat)
  /-- MSET (R219). -/
  | mset (md cnt : Nat)
  /-- MSET_REG (R219). -/
  | msetReg (md gn : Nat)
  -- special-function slot F
  /-- FEXP2 (R220). -/
  | fexp2 (e : Option Nat) (vd va mk : Nat)
  /-- FLOG2 (R220). -/
  | flog2 (e : Option Nat) (vd va mk : Nat)
  /-- FRCP (R220). -/
  | frcp (e : Option Nat) (vd va mk : Nat)
  /-- FRSQ (R220). -/
  | frsq (e : Option Nat) (vd va mk : Nat)
  -- matrix slot M
  /-- MCLAIM (R224). -/
  | mclaim (kind first cnt : Nat)
  /-- MREL (R224). -/
  | mrel (kind first cnt : Nat)
  /-- MFILL (R227). -/
  | mfill (e : Option Nat) (os grp an off : Nat)
  /-- MLATCH (R229). -/
  | mlatch (lt os : Nat) (blk : Bool)
  /-- MPUSH (R228). -/
  | mpush (e : Option Nat) (lt row va : Nat) (part blk : Bool)
  /-- MSHIFT (R228). -/
  | mshift (e : Option Nat) (os row va : Nat) (part blk : Bool)
  /-- MACC (R230). -/
  | macc (e : Option Nat) (acc row os lt : Nat) (za : Bool)
  /-- MDRAIN (R232). -/
  | mdrain (acc row vd tt part : Nat) (clr : Bool)
  /-- MZERO (R231). -/
  | mzero (acc : Nat)
  /-- MFMT (R225). -/
  | mfmt (fa fb : Nat) (ca cb : Bool) (ct : Nat) (ua ub : Bool)
  -- modular slot N
  /-- QLDM (R235). -/
  | qldm (e : Option Nat) (q va : Nat)
  /-- QLDK (R235). -/
  | qldk (e : Option Nat) (q va : Nat)
  /-- QADD (R236). -/
  | qadd (e : Option Nat) (vd va vb mk q : Nat)
  /-- QSUB (R236). -/
  | qsub (e : Option Nat) (vd va vb mk q : Nat)
  /-- QMUL (R236). -/
  | qmul (e : Option Nat) (vd va vb mk q : Nat)
  /-- QMAC (R236). -/
  | qmac (e : Option Nat) (vd va vb mk q : Nat)
  /-- QRED (R236). -/
  | qred (e : Option Nat) (vd va mk q : Nat)
  /-- QBFLY (R238). -/
  | qbfly (e : Option Nat) (vx vy vw mk q : Nat)
  /-- QIBFLY (R238). -/
  | qibfly (e : Option Nat) (vx vy vw mk q : Nat)
  /-- QCVT_Q64_I64 (R237). -/
  | qcvtQ64I64 (e : Option Nat) (vd va mk q : Nat)
  /-- QCVT_I64_Q64 (R237). -/
  | qcvtI64Q64 (e : Option Nat) (vd va mk q : Nat)
  /-- BPERM (R239). -/
  | bperm (e : Option Nat) (vd va mk stg : Nat) (w : Bool)
  /-- BPERMI (R239). -/
  | bpermi (e : Option Nat) (vd va stg : Nat) (w : Bool)
  /-- VXPERM (R240). -/
  | vxperm (e : Option Nat) (vd va vi mk : Nat) (w : Bool)
  -- communication slot C
  /-- SEQLV (R170). -/
  | seqlv (e : Option Nat) (lvl fld gn : Nat)
  /-- SEQGO (R171). -/
  | seqgo (d gs c : Nat)
  /-- TMOV (R174). -/
  | tmov (d gs c sz : Nat)
  /-- MCAST (R175). -/
  | mcast (e : Nat) (d gs c sz : Nat)
  /-- SEND (R177). -/
  | send (ch vs nb : Nat)
  /-- SEND_MEM (R177). -/
  | sendMem (ch a nb : Nat)
  /-- RECV (R178). -/
  | recv (e : Option Nat) (ch vd nb tag gn : Nat)
  /-- RECV_MEM (R178). -/
  | recvMem (e : Option Nat) (ch a nb gn : Nat)
  /-- NMCMD (R179). -/
  | nmcmd (a c : Nat)
  /-- NMFENCE (R182). -/
  | nmfence
  /-- FENCE (R183). -/
  | fence (scope : Nat)
  /-- ATOM (R186). -/
  | atom (op w a b rt : Nat)
  /-- ATOMR (R188). -/
  | atomr (op w a b rt : Nat)
  /-- SHALLOC (R190). -/
  | shalloc (gs rt : Nat) (mir : Bool)
  /-- SHFREE (R190). -/
  | shfree (a rt : Nat)
  /-- STAMP (R184). -/
  | stamp (e : Option Nat) (scope a gv : Nat)
  /-- MONARM (R185). -/
  | monarm (mon a : Nat)
  /-- BNDSET (R191). -/
  | bndset (bd lo hi mode : Nat) (fk : Bool)
  /-- CTSET (R192). -/
  | ctset (ct a : Nat)
  /-- COLL (R193). -/
  | coll (a c : Nat)
  /-- PREF (R194). -/
  | pref (a sz : Nat)
  -- events
  /-- CONTEXT_READY (R39). -/
  | contextReady (core ctx : Nat)
  /-- HELD_RECORD_POST (R264). -/
  | heldRecordPost (core ctx : Nat)
  /-- DEFERRED_CAUSE_TAKEN (R105). -/
  | deferredCauseTaken (core ctx : Nat)
  /-- TRANSFER_DATA_ARRIVAL (R26). -/
  | transferDataArrival (id : Nat)
  /-- BARRIER_ARRIVAL (R89). -/
  | barrierArrival (id : Nat)
  /-- STAMP_WRITE (R91). -/
  | stampWrite (id : Nat)
  /-- MONARM_READ_RETURN (R185). -/
  | monarmReadReturn (id : Nat)
  /-- POSTED_STORE_PERFORM (R82). -/
  | postedStorePerform (id : Nat)
  /-- BEAT_ARRIVAL (R44). -/
  | beatArrival (id : Nat)
  /-- BEAT_REOFFER (R271). -/
  | beatReoffer (id : Nat)
  /-- CREDIT_RETURN (R44). -/
  | creditReturn (id : Nat)
  /-- NMCMD_ACCEPT (R96). -/
  | nmcmdAccept (id : Nat)
  /-- NMCMD_COMPLETE (R181). -/
  | nmcmdComplete (id : Nat)
  /-- NMFENCE_ANSWER (R96). -/
  | nmfenceAnswer (id stack : Nat)
  /-- COPY_COMPLETE (R168). -/
  | copyComplete (id : Nat)
  /-- MCAST_DELIVERY (R175). -/
  | mcastDelivery (id core : Nat)
  /-- SLOW_PATH_HANDOFF (R173). -/
  | slowPathHandoff (id : Nat)
  /-- PAGE_REQUEST_REPLY (R286). -/
  | pageRequestReply (id : Nat)
  /-- ATOMIC_PERFORM (R187). -/
  | atomicPerform (id : Nat)
  /-- SHALLOC_REPLY (R297). -/
  | shallocReply (id : Nat)
  /-- SHFREE_REPLY (R297). -/
  | shfreeReply (id : Nat)
  /-- SHELF_SWITCH_FAILURE (R299). -/
  | shelfSwitchFailure (dest : Nat)
  /-- COLL_REGISTRATION (R320). -/
  | collRegistration (id : Nat)
  /-- CHUNK_ACKNOWLEDGED (R320). -/
  | chunkAcknowledged (id : Nat)
  /-- SWITCH_RESULT (R323). -/
  | switchResult (id : Nat)
  /-- FALLBACK (R323). -/
  | fallback (id : Nat)
  /-- INTAKE_STEP (R304). -/
  | intakeStep (part : Nat)
  /-- PART_START (R306). -/
  | partStart (core : Nat)
  /-- TASK_COMPLETE (R307). -/
  | taskComplete (task : Nat)
  /-- ENDED_CAUSE_RECORD (R307). -/
  | endedCauseRecord (task : Nat)
  /-- RESUME (R265). -/
  | resume (core ctx : Nat)
  /-- STEP (R265). -/
  | step (core ctx : Nat)
  /-- SUSPEND (R265). -/
  | suspend (core ctx : Nat)
  /-- ABORT (R265). -/
  | abort (core ctx : Nat)
  /-- SAVE_COMPLETE (R269). -/
  | saveComplete (id : Nat)
  /-- SAVE_ABANDON (R269). -/
  | saveAbandon (id : Nat)
  /-- LOAD_COMPLETE (R269). -/
  | loadComplete (id : Nat)
  /-- IDLE_WAKE (R274). -/
  | idleWake (core ctx : Nat)
  /-- TQCTL_WRITE (R259). -/
  | tqctlWrite (part val : Nat)
  /-- TQCONS_WRITE (R258). -/
  | tqconsWrite (part val : Nat)
  /-- ENERGYW_WRITE (R258). -/
  | energywWrite (core ctx val : Nat)
  /-- GEARW_WRITE (R258). -/
  | gearwWrite (core ctx val : Nat)
  /-- FMTCTL_WRITE (R66). -/
  | fmtctlWrite (core ctx val : Nat)
  /-- REGISTER_WRITE (R5). -/
  | registerWrite (core ctx sel idx val : Nat)
  /-- TABLE_WALK (R280). -/
  | tableWalk (core va : Nat)
  /-- COUNTER_ADD (R285). -/
  | counterAdd (core va : Nat)
  /-- TLBINV_COMPLETE (R289). -/
  | tlbinvComplete (id : Nat)
  /-- SLOT_GRANT (R19). -/
  | slotGrant (port entry : Nat)
  /-- SLOT_TABLE_SWITCH (R292). -/
  | slotTableSwitch (port : Nat)
  /-- PARTITION_CREATE (R291). -/
  | partitionCreate (n : Nat)
  /-- FABRIC_RECEIVE (R311). -/
  | fabricReceive (src tenant seq kind addr : Nat) (bytes : List (BitVec 8))
  /-- PEER_ACK (R319). -/
  | peerAck (id : Nat)
  /-- LINK_UP (R314). -/
  | linkUp (port link far fw0 fw1 : Nat)
  /-- FLIT_REPLAY (R312). -/
  | flitReplay (port link : Nat)
  /-- LINK_FAILURE (R312). -/
  | linkFailure (port link : Nat)
  /-- LINK_RETRAIN (R312). -/
  | linkRetrain (port link fw0 fw1 : Nat)
  /-- DESTINATION_UNREACHABLE (R313). -/
  | destinationUnreachable (dest : Nat)
  /-- REACHABLE_MARK (R313). -/
  | reachableMark (dest : Nat)
  /-- POISON_CONSUMPTION (R326). -/
  | poisonConsumption (core ctx kind addr : Nat)
  /-- PATROL_SCRUB (R324). -/
  | patrolScrub (core : Nat)
  /-- GEAR_CHANGE (R331). -/
  | gearChange (core : Nat)
  /-- GEAR_CHANGE_DONE (R331). -/
  | gearChangeDone (core : Nat)
  /-- CAP_CONTROLLER_STEP (R335). -/
  | capControllerStep
  /-- THERMAL_HOLD (R336). -/
  | thermalHold (die : Nat)
  /-- THERMAL_RELEASE (R336). -/
  | thermalRelease (die : Nat)
  /-- EMERGENCY_SAVE (R343). -/
  | emergencySave
  /-- POWER_REMOVAL (R336). -/
  | powerRemoval
  /-- DROOP_TRIP (R333). -/
  | droopTrip (cluster : Nat)
  /-- DROOP_RECOVERY (R333). -/
  | droopRecovery (cluster : Nat)
  /-- HBM_FREQUENCY_CHANGE (R334). -/
  | hbmFrequencyChange (stack freq : Nat)
  /-- RETRAINING_PAUSE_END (R334). -/
  | retrainingPauseEnd (stack : Nat)
  /-- BALLAST_ESTIMATE (R337). -/
  | ballastEstimate (cluster : Nat)
  /-- STATIC_TICK (R340). -/
  | staticTick (core : Nat)
  /-- WEAR_SWING (R342). -/
  | wearSwing (die deg : Nat)
  /-- WEAR_FLASH_WRITE (R342). -/
  | wearFlashWrite
  /-- ORDERLY_SHUTDOWN (R342). -/
  | orderlyShutdown
  /-- RESTART_RESTORE (R344). -/
  | restartRestore
  /-- POWER_ON (R350). -/
  | powerOn
  /-- BOOT_STAGE_COMPLETE (R350). -/
  | bootStageComplete (stage : Nat)
  /-- FDOOR_SUBMIT (R349). -/
  | fdoorSubmit (f0 f1 f2 f3 : Nat)
  /-- CAPSET_WRITE (R346). -/
  | capsetWrite (val : Nat)
  /-- CHECKPOINT_START (R353). -/
  | checkpointStart
  /-- CHECKPOINT_PERIOD (R353). -/
  | checkpointPeriod (sec : Nat)
  /-- PERIODIC_CHECKPOINT (R353). -/
  | periodicCheckpoint
  /-- CHECKPOINT_COMPLETE (R353). -/
  | checkpointComplete
  /-- ATTESTATION_REQUEST (R355). -/
  | attestationRequest (addr : Nat)
  /-- ATTESTATION_REPORT_READY (R355). -/
  | attestationReportReady
  /-- KLOTY_QUEUE_RECORD (R347). -/
  | klotyQueueRecord (die : Nat)
  /-- HOST_WINDOW_ACCESS (R345). -/
  | hostWindowAccess (addr : Nat) (write : Bool) (bytes : List (BitVec 8))
  /-- EXPANDER_RETURN (R352). -/
  | expanderReturn (port : Nat)
  /-- HBM4_REFRESH (R334). -/
  | hbm4Refresh (stack : Nat)
  /-- CHAIN_PARTIAL_ARRIVAL (R321). -/
  | chainPartialArrival (id : Nat)
  /-- PARTITION_CHANGE (R291). -/
  | partitionChange (part : Nat)
  deriving DecidableEq, Repr

end Sys2Proof
end

