-- ==== Sys2Proof/WellFormed.lean ====
section
/-!
DEFINITION. Which instructions are well formed: every operand field fits the width its encoding gives it, and the
operands satisfy the conditions whose breach the spec calls an illegal instruction on the word alone (R113, R114, R118
and the layouts of the instruction chapters).  Conditions that depend on the machine (features, privilege, hold
latches, tags) are judged at issue.
-/

namespace Sys2Proof

/-- Integer tags (R52). -/
def intTag (t : Nat) : Bool := decide (1 ≤ t ∧ t ≤ 4)
/-- The three wide floating-point tags (R203). -/
def fpTag (t : Nat) : Bool := decide (8 ≤ t ∧ t ≤ 10)
/-- Targets of `MDRAIN` (R232). -/
def drainTag (t : Nat) : Bool := decide ((1 ≤ t ∧ t ≤ 3) ∨ (5 ≤ t ∧ t ≤ 10))
/-- Element width of a tag in bits (R52); raw takes the whole register. -/
def tagWidth (t : Nat) : Nat :=
  match t with
  | 1 | 5 | 6 | 7 | 12 => 8
  | 2 | 8 | 9 => 16
  | 3 | 10 => 32
  | 4 | 11 => 64
  | _ => 2048
/-- Elements per register (R52). -/
def tagCount (t : Nat) : Nat := 2048 / tagWidth t
/-- How many PART values a conversion has (R206). -/
def cvtParts (ft tt : Nat) : Nat :=
  if tagCount ft ≤ tagCount tt then tagCount tt / tagCount ft else tagCount ft / tagCount tt
/-- The extension of layout X with `n` vector sources and `m` the first value bits 28:0 may not reach (R114, R115). -/
def extX (n m : Nat) (e : Option Nat) : Bool :=
  e.all fun x => decide (x % 2 ^ 29 < m) && decide (x / 2 ^ 29 < 2 ^ n)
/-- Layout X with bits 28:0 reserved (R198). -/
def holds (n : Nat) (e : Option Nat) : Bool := extX n 1 e
/-- Extension of `BARV` by its target set (R150). -/
def barvExt (tset : Nat) (e : Option Nat) : Bool :=
  match tset, e with
  | 5, some x => decide (x < 512)
  | 6, some x => decide (x < 256)
  | 5, none => false
  | 6, none => false
  | 7, _ => false
  | _, none => true
  | _, some _ => false
/-- Pairs of `VCVTS`: those the table of R70 marks "Rounds" (R207). -/
def srPair (ft tt : Nat) : Bool :=
  (decide (5 ≤ tt ∧ tt ≤ 7)) || (ft == 10 && (tt == 8 || tt == 9)) || (ft == 8 && tt == 9) || (ft == 9 && tt == 8)
/-- Units of a matrix kind (R223). -/
def unitCount (kind : Nat) : Nat := match kind with | 0 => 64 | 1 => 48 | _ => 4
/-- Class of an array operand format: 1 for 16 bit, 2 for 8-bit floating point, 3 for integer, 0 for none (R225). -/
def arrayClass (f : Nat) : Nat :=
  match f with
  | 8 | 9 => 1
  | 5 | 6 | 7 | 12 => 2
  | 1 => 3
  | _ => 0
/-- Legal `MFMT` settings (R225). -/
def mfmtOk (fa fb : Nat) (ca cb : Bool) (ct : Nat) (ua ub : Bool) : Bool :=
  arrayClass fa != 0 && arrayClass fa == arrayClass fb && (!ca || fa == 7) && (!cb || fb == 7) &&
  (!ua || fa == 1) && (!ub || fb == 1) && (ct == 0 || ca || cb)
/-- Legal operations of `ATOM` and `ATOMR` (R186). -/
def atomOk (op w b : Nat) : Bool :=
  if op < 10 then (w == 1 || w == 2) && (op != 9 || b != 63)
  else if op = 10 then w == 1 else if op = 11 then w == 0 else false
/-- Selectors `SRD` accepts (R139). -/
def srdSel (sel idx : Nat) : Bool :=
  match sel with
  | 0x06 => decide (idx < 2)
  | 0x07 => decide (idx < 9)
  | 0x0B | 0x0C | 0x0D => decide (idx < 4)
  | 0x00 | 0x01 | 0x02 | 0x03 | 0x04 | 0x05 | 0x08 | 0x09 | 0x0A => idx == 0
  | _ => false
/-- Selectors `SWR` accepts (R139). -/
def swrSel (sel idx : Nat) : Bool := (sel == 0x05 && idx == 0) || (sel == 0x0C && decide (idx < 4))
/-- Selectors `SRDP` adds (R258, R308, R316, R329). -/
def srdpSel (sel idx : Nat) : Bool :=
  srdSel sel idx ||
  match sel with
  | 0x4F | 0x5C => decide (idx < 4)
  | 0x55 | 0x56 | 0x57 => decide (idx < 6)
  | 0x58 | 0x59 | 0x5A | 0x5B => decide (idx < 14)
  | _ => decide ((0x40 ≤ sel ∧ sel ≤ 0x54 ∧ sel ≠ 0x4F)) && idx == 0
/-- Selectors `SWRP` accepts: those of `SWR` and the writable privileged registers (R257, R258). -/
def swrpSel (sel idx : Nat) : Bool :=
  swrSel sel idx ||
  match sel with
  | 0x4F => decide (idx < 4)
  | 0x41 | 0x42 | 0x43 | 0x44 | 0x45 | 0x46 | 0x48 | 0x49 | 0x4A | 0x4B | 0x4C | 0x4D | 0x50 | 0x51 => idx == 0
  | _ => false
/-- The syllables of a bundle: one per slot in header order, words of 32 bits, an extension exactly where bit 31 is set (R106). -/
def sylsBounded : List (Nat × Nat × Option Nat) → Bool
  | [] => true
  | (sl, w, e) :: rest =>
    decide (sl < 11) && decide (w < 2 ^ 32) && e.all (· < 2 ^ 32) && (e.isSome == decide (2 ^ 31 ≤ w)) &&
    (rest.head?.all fun t => decide (sl < t.1)) && sylsBounded rest

/-- Every field lies in the width the encoding gives it. -/
def Instr.bounded : Instr → Bool
  | .bundleIssue rep _ _ _ syls => decide (rep < 16) && sylsBounded syls
  | .dictionaryReference rep _ _ _ idx => decide (rep < 16) && decide (idx < 256)
  | .idleBundle _ _ count => decide (1 ≤ count ∧ count < 4096)
  | .nop => true
  | .br off => decide (off < 16777216)
  | .brp p _ off => decide (p < 16) && decide (off < 262144)
  | .brr a => decide (a < 64)
  | .call link off => decide (link < 64) && decide (off < 262144)
  | .ret a => decide (a < 64)
  | .loop lvl lcn _ off => decide (lvl < 4) && decide (lcn < 4) && decide (off < 262144)
  | .loopEnd lvl => decide (lvl < 4)
  | .endk => true
  | .bwait e bar gn => e.all (· < 2 ^ 32) && decide (bar < 2048) && decide (gn < 64)
  | .barv e bar gn scope tset => e.all (· < 2 ^ 32) && decide (bar < 2048) && decide (gn < 64) && decide (scope < 8) && decide (tset < 8)
  | .binit e bar gn => e.all (· < 2 ^ 32) && decide (bar < 2048) && decide (gn < 64)
  | .monwait e mon gn => e.all (· < 2 ^ 32) && decide (mon < 4) && decide (gn < 64)
  | .gear gr => decide (gr < 4)
  | .gearReg gn => decide (gn < 64)
  | .trap code => decide (code < 256)
  | .brk code => decide (code < 256)
  | .dlchk pd gn _ => decide (pd < 16) && decide (gn < 64)
  | .launch a pri => decide (a < 64) && decide (pri < 4)
  | .lqstat d pri => decide (d < 64) && decide (pri < 4)
  | .eret => true
  | .srdp d sr idx => decide (d < 64) && decide (sr < 256) && decide (idx < 16)
  | .swrp a sr idx => decide (a < 64) && decide (sr < 256) && decide (idx < 16)
  | .tlbinvPage a c => decide (a < 64) && decide (c < 64)
  | .tlbinvAll c => decide (c < 64)
  | .tlbinvWb a c => decide (a < 64) && decide (c < 64)
  | .ctxsvCtx t a c => decide (t < 64) && decide (a < 64) && decide (c < 64)
  | .ctxsvCore t a c => decide (t < 64) && decide (a < 64) && decide (c < 64)
  | .ctxldCtx t a c => decide (t < 64) && decide (a < 64) && decide (c < 64)
  | .ctxldCore t a c => decide (t < 64) && decide (a < 64) && decide (c < 64)
  | .trcctlOff => true
  | .trcctlRec a => decide (a < 64)
  | .trcctlBind a => decide (a < 64)
  | .idle => true
  | .add e d a b p _ => e.all (· < 2 ^ 32) && decide (d < 64) && decide (a < 64) && decide (b < 64) && decide (p < 16)
  | .sub e d a b p _ => e.all (· < 2 ^ 32) && decide (d < 64) && decide (a < 64) && decide (b < 64) && decide (p < 16)
  | .mul e d a b p _ => e.all (· < 2 ^ 32) && decide (d < 64) && decide (a < 64) && decide (b < 64) && decide (p < 16)
  | .and e d a b p _ => e.all (· < 2 ^ 32) && decide (d < 64) && decide (a < 64) && decide (b < 64) && decide (p < 16)
  | .or e d a b p _ => e.all (· < 2 ^ 32) && decide (d < 64) && decide (a < 64) && decide (b < 64) && decide (p < 16)
  | .xor e d a b p _ => e.all (· < 2 ^ 32) && decide (d < 64) && decide (a < 64) && decide (b < 64) && decide (p < 16)
  | .andn e d a b p _ => e.all (· < 2 ^ 32) && decide (d < 64) && decide (a < 64) && decide (b < 64) && decide (p < 16)
  | .shl e d a b p _ => e.all (· < 2 ^ 32) && decide (d < 64) && decide (a < 64) && decide (b < 64) && decide (p < 16)
  | .shr e d a b p _ => e.all (· < 2 ^ 32) && decide (d < 64) && decide (a < 64) && decide (b < 64) && decide (p < 16)
  | .sra e d a b p _ => e.all (· < 2 ^ 32) && decide (d < 64) && decide (a < 64) && decide (b < 64) && decide (p < 16)
  | .rot e d a b p _ => e.all (· < 2 ^ 32) && decide (d < 64) && decide (a < 64) && decide (b < 64) && decide (p < 16)
  | .mulh e d a b p _ _ => e.all (· < 2 ^ 32) && decide (d < 64) && decide (a < 64) && decide (b < 64) && decide (p < 16)
  | .div e d a b p _ _ => e.all (· < 2 ^ 32) && decide (d < 64) && decide (a < 64) && decide (b < 64) && decide (p < 16)
  | .rem e d a b p _ _ => e.all (· < 2 ^ 32) && decide (d < 64) && decide (a < 64) && decide (b < 64) && decide (p < 16)
  | .min e d a b p _ _ => e.all (· < 2 ^ 32) && decide (d < 64) && decide (a < 64) && decide (b < 64) && decide (p < 16)
  | .max e d a b p _ _ => e.all (· < 2 ^ 32) && decide (d < 64) && decide (a < 64) && decide (b < 64) && decide (p < 16)
  | .clz d a p _ => decide (d < 64) && decide (a < 64) && decide (p < 16)
  | .popc d a p _ => decide (d < 64) && decide (a < 64) && decide (p < 16)
  | .cmp e pd cond a b p _ _ => e.all (· < 2 ^ 32) && decide (pd < 16) && decide (cond < 4) && decide (a < 64) && decide (b < 64) && decide (p < 16)
  | .sel e d a b ps _ => e.all (· < 2 ^ 32) && decide (d < 64) && decide (a < 64) && decide (b < 64) && decide (ps < 16)
  | .ldi d imm => decide (d < 64) && decide (imm < 262144)
  | .ldiExt e d => decide (e < 2 ^ 32) && decide (d < 64)
  | .ldiHi e d => decide (e < 2 ^ 32) && decide (d < 64)
  | .pand pd pa pb _ _ => decide (pd < 16) && decide (pa < 16) && decide (pb < 16)
  | .por pd pa pb _ _ => decide (pd < 16) && decide (pa < 16) && decide (pb < 16)
  | .pxor pd pa pb _ _ => decide (pd < 16) && decide (pa < 16) && decide (pb < 16)
  | .pnot pd pa _ => decide (pd < 16) && decide (pa < 16)
  | .srd d sr idx p _ => decide (d < 64) && decide (sr < 256) && decide (idx < 16) && decide (p < 16)
  | .swr a sr idx p _ => decide (a < 64) && decide (sr < 256) && decide (idx < 16) && decide (p < 16)
  | .amov ad as _ => decide (ad < 16) && decide (as < 16)
  | .aadd e ad as gn => e.all (· < 2 ^ 32) && decide (ad < 16) && decide (as < 16) && decide (gn < 64)
  | .aldi e ad gn imm => e.all (· < 2 ^ 32) && decide (ad < 16) && decide (gn < 64) && decide (imm < 16384)
  | .astr e ad lvl gn => e.all (· < 2 ^ 32) && decide (ad < 16) && decide (lvl < 4) && decide (gn < 64)
  | .aget d as _ lvl => decide (d < 64) && decide (as < 16) && decide (lvl < 4)
  | .aclr mask _ => decide (mask < 65536)
  | .ld e d an sz _ off => e.all (· < 2 ^ 32) && decide (d < 64) && decide (an < 16) && decide (sz < 4) && decide (off < 2048)
  | .st e gs an sz off => e.all (· < 2 ^ 32) && decide (gs < 64) && decide (an < 16) && decide (sz < 4) && decide (off < 2048)
  | .vld e vd an tag off => e.all (· < 2 ^ 32) && decide (vd < 32) && decide (an < 16) && decide (tag < 16) && decide (off < 2048)
  | .vst e vs an tag mk off => e.all (· < 2 ^ 32) && decide (vs < 32) && decide (an < 16) && decide (tag < 16) && decide (mk < 16) && decide (off < 128)
  | .vldw e pr an tag _ off => e.all (· < 2 ^ 32) && decide (pr < 16) && decide (an < 16) && decide (tag < 16) && decide (off < 2048)
  | .vstw e pr an tag _ off => e.all (· < 2 ^ 32) && decide (pr < 16) && decide (an < 16) && decide (tag < 16) && decide (off < 2048)
  | .vgth e vd vi an mk tag => e.all (· < 2 ^ 32) && decide (vd < 32) && decide (vi < 32) && decide (an < 16) && decide (mk < 16) && decide (tag < 16)
  | .vsct e vs vi an mk tag => e.all (· < 2 ^ 32) && decide (vs < 32) && decide (vi < 32) && decide (an < 16) && decide (mk < 16) && decide (tag < 16)
  | .vjoin => true
  | .pld e md an off => e.all (· < 2 ^ 32) && decide (md < 16) && decide (an < 16) && decide (off < 65536)
  | .pst e ms an off => e.all (· < 2 ^ 32) && decide (ms < 16) && decide (an < 16) && decide (off < 65536)
  | .vadd e vd va vb mk ft _ => e.all (· < 2 ^ 32) && decide (vd < 32) && decide (va < 32) && decide (vb < 32) && decide (mk < 16) && decide (ft < 16)
  | .vsub e vd va vb mk ft _ => e.all (· < 2 ^ 32) && decide (vd < 32) && decide (va < 32) && decide (vb < 32) && decide (mk < 16) && decide (ft < 16)
  | .vmul e vd va vb mk ft _ => e.all (· < 2 ^ 32) && decide (vd < 32) && decide (va < 32) && decide (vb < 32) && decide (mk < 16) && decide (ft < 16)
  | .vmulh e vd va vb mk ft _ => e.all (· < 2 ^ 32) && decide (vd < 32) && decide (va < 32) && decide (vb < 32) && decide (mk < 16) && decide (ft < 16)
  | .vsadd e vd va vb mk ft _ => e.all (· < 2 ^ 32) && decide (vd < 32) && decide (va < 32) && decide (vb < 32) && decide (mk < 16) && decide (ft < 16)
  | .vssub e vd va vb mk ft _ => e.all (· < 2 ^ 32) && decide (vd < 32) && decide (va < 32) && decide (vb < 32) && decide (mk < 16) && decide (ft < 16)
  | .vmin e vd va vb mk ft _ => e.all (· < 2 ^ 32) && decide (vd < 32) && decide (va < 32) && decide (vb < 32) && decide (mk < 16) && decide (ft < 16)
  | .vmax e vd va vb mk ft _ => e.all (· < 2 ^ 32) && decide (vd < 32) && decide (va < 32) && decide (vb < 32) && decide (mk < 16) && decide (ft < 16)
  | .vabs e vd va mk ft _ => e.all (· < 2 ^ 32) && decide (vd < 32) && decide (va < 32) && decide (mk < 16) && decide (ft < 16)
  | .vneg e vd va mk ft _ => e.all (· < 2 ^ 32) && decide (vd < 32) && decide (va < 32) && decide (mk < 16) && decide (ft < 16)
  | .vand e vd va vb mk ft _ => e.all (· < 2 ^ 32) && decide (vd < 32) && decide (va < 32) && decide (vb < 32) && decide (mk < 16) && decide (ft < 16)
  | .vor e vd va vb mk ft _ => e.all (· < 2 ^ 32) && decide (vd < 32) && decide (va < 32) && decide (vb < 32) && decide (mk < 16) && decide (ft < 16)
  | .vxor e vd va vb mk ft _ => e.all (· < 2 ^ 32) && decide (vd < 32) && decide (va < 32) && decide (vb < 32) && decide (mk < 16) && decide (ft < 16)
  | .vandn e vd va vb mk ft _ => e.all (· < 2 ^ 32) && decide (vd < 32) && decide (va < 32) && decide (vb < 32) && decide (mk < 16) && decide (ft < 16)
  | .vshl e vd va vb mk ft _ => e.all (· < 2 ^ 32) && decide (vd < 32) && decide (va < 32) && decide (vb < 32) && decide (mk < 16) && decide (ft < 16)
  | .vshr e vd va vb mk ft _ => e.all (· < 2 ^ 32) && decide (vd < 32) && decide (va < 32) && decide (vb < 32) && decide (mk < 16) && decide (ft < 16)
  | .vsra e vd va vb mk ft _ => e.all (· < 2 ^ 32) && decide (vd < 32) && decide (va < 32) && decide (vb < 32) && decide (mk < 16) && decide (ft < 16)
  | .vclz e vd va mk ft _ => e.all (· < 2 ^ 32) && decide (vd < 32) && decide (va < 32) && decide (mk < 16) && decide (ft < 16)
  | .vpopc e vd va mk ft _ => e.all (· < 2 ^ 32) && decide (vd < 32) && decide (va < 32) && decide (mk < 16) && decide (ft < 16)
  | .vcmp e md va vb cond ft _ => e.all (· < 2 ^ 32) && decide (md < 16) && decide (va < 32) && decide (vb < 32) && decide (cond < 8) && decide (ft < 16)
  | .vfadd e vd va vb mk ft => e.all (· < 2 ^ 32) && decide (vd < 32) && decide (va < 32) && decide (vb < 32) && decide (mk < 16) && decide (ft < 16)
  | .vfsub e vd va vb mk ft => e.all (· < 2 ^ 32) && decide (vd < 32) && decide (va < 32) && decide (vb < 32) && decide (mk < 16) && decide (ft < 16)
  | .vfmul e vd va vb mk ft => e.all (· < 2 ^ 32) && decide (vd < 32) && decide (va < 32) && decide (vb < 32) && decide (mk < 16) && decide (ft < 16)
  | .vfma e vd va vb mk ft => decide (e < 2 ^ 32) && decide (vd < 32) && decide (va < 32) && decide (vb < 32) && decide (mk < 16) && decide (ft < 16)
  | .vfms e vd va vb mk ft => decide (e < 2 ^ 32) && decide (vd < 32) && decide (va < 32) && decide (vb < 32) && decide (mk < 16) && decide (ft < 16)
  | .vfnma e vd va vb mk ft => decide (e < 2 ^ 32) && decide (vd < 32) && decide (va < 32) && decide (vb < 32) && decide (mk < 16) && decide (ft < 16)
  | .vfmin e vd va vb mk ft => e.all (· < 2 ^ 32) && decide (vd < 32) && decide (va < 32) && decide (vb < 32) && decide (mk < 16) && decide (ft < 16)
  | .vfmax e vd va vb mk ft => e.all (· < 2 ^ 32) && decide (vd < 32) && decide (va < 32) && decide (vb < 32) && decide (mk < 16) && decide (ft < 16)
  | .vfabs e vd va mk ft => e.all (· < 2 ^ 32) && decide (vd < 32) && decide (va < 32) && decide (mk < 16) && decide (ft < 16)
  | .vfneg e vd va mk ft => e.all (· < 2 ^ 32) && decide (vd < 32) && decide (va < 32) && decide (mk < 16) && decide (ft < 16)
  | .vfcmp e md va vb cond ft => e.all (· < 2 ^ 32) && decide (md < 16) && decide (va < 32) && decide (vb < 32) && decide (cond < 8) && decide (ft < 16)
  | .vfcls e md va cls ft => e.all (· < 2 ^ 32) && decide (md < 16) && decide (va < 32) && decide (cls < 1024) && decide (ft < 16)
  | .vfexp e vd va mk ft => e.all (· < 2 ^ 32) && decide (vd < 32) && decide (va < 32) && decide (mk < 16) && decide (ft < 16)
  | .vfscl e vd va vb mk ft => e.all (· < 2 ^ 32) && decide (vd < 32) && decide (va < 32) && decide (vb < 32) && decide (mk < 16) && decide (ft < 16)
  | .vcvt e vd va tt ft part _ _ => e.all (· < 2 ^ 32) && decide (vd < 32) && decide (va < 32) && decide (tt < 16) && decide (ft < 16) && decide (part < 8)
  | .vcvts e vd va vr tt ft => e.all (· < 2 ^ 32) && decide (vd < 32) && decide (va < 32) && decide (vr < 32) && decide (tt < 16) && decide (ft < 16)
  | .vquant e vd va ct part ft => e.all (· < 2 ^ 32) && decide (vd < 32) && decide (va < 32) && decide (ct < 4) && decide (part < 4) && decide (ft < 16)
  | .vquantBlk e vd va md ft => e.all (· < 2 ^ 32) && decide (vd < 32) && decide (va < 32) && decide (md < 16) && decide (ft < 16)
  | .vdeq e vd va tt ct part => e.all (· < 2 ^ 32) && decide (vd < 32) && decide (va < 32) && decide (tt < 16) && decide (ct < 4) && decide (part < 8)
  | .vdeqBlk e vd va tt part => e.all (· < 2 ^ 32) && decide (vd < 32) && decide (va < 32) && decide (tt < 16) && decide (part < 8)
  | .vsel e vd va vb mk ft _ => e.all (· < 2 ^ 32) && decide (vd < 32) && decide (va < 32) && decide (vb < 32) && decide (mk < 16) && decide (ft < 16)
  | .vmov e vd va mk ft _ => e.all (· < 2 ^ 32) && decide (vd < 32) && decide (va < 32) && decide (mk < 16) && decide (ft < 16)
  | .vbcast vd gn mk ft _ => decide (vd < 32) && decide (gn < 64) && decide (mk < 16) && decide (ft < 16)
  | .vbcastRow e vd va idx ft => e.all (· < 2 ^ 32) && decide (vd < 32) && decide (va < 32) && decide (idx < 64) && decide (ft < 16)
  | .vbcastCol e vd va idx ft => e.all (· < 2 ^ 32) && decide (vd < 32) && decide (va < 32) && decide (idx < 64) && decide (ft < 16)
  | .vins vd gn idx ft _ => decide (vd < 32) && decide (gn < 64) && decide (idx < 256) && decide (ft < 16)
  | .vext e d va idx ft _ => e.all (· < 2 ^ 32) && decide (d < 64) && decide (va < 32) && decide (idx < 256) && decide (ft < 16)
  | .vshape rc => decide (rc < 8)
  | .vtag e vd va tt => e.all (· < 2 ^ 32) && decide (vd < 32) && decide (va < 32) && decide (tt < 16)
  | .vrsum e vd va mk ft _ _ => e.all (· < 2 ^ 32) && decide (vd < 32) && decide (va < 32) && decide (mk < 16) && decide (ft < 16)
  | .vrmax e vd va mk ft _ _ => e.all (· < 2 ^ 32) && decide (vd < 32) && decide (va < 32) && decide (mk < 16) && decide (ft < 16)
  | .vrmin e vd va mk ft _ _ => e.all (· < 2 ^ 32) && decide (vd < 32) && decide (va < 32) && decide (mk < 16) && decide (ft < 16)
  | .vxrd e vd va vi mk md _ => e.all (· < 2 ^ 32) && decide (vd < 32) && decide (va < 32) && decide (vi < 32) && decide (mk < 16) && decide (md < 16)
  | .vrot e vd va k ft _ => e.all (· < 2 ^ 32) && decide (vd < 32) && decide (va < 32) && decide (k < 256) && decide (ft < 16)
  | .vspush e sq va mk => e.all (· < 2 ^ 32) && decide (sq < 4) && decide (va < 32) && decide (mk < 16)
  | .vspop sq vd md => decide (sq < 4) && decide (vd < 32) && decide (md < 16)
  | .vspopEnd sq vd md => decide (sq < 4) && decide (vd < 32) && decide (md < 16)
  | .vsbal sqa sqb => decide (sqa < 4) && decide (sqb < 4)
  | .mand md ma mb => decide (md < 16) && decide (ma < 16) && decide (mb < 16)
  | .mor md ma mb => decide (md < 16) && decide (ma < 16) && decide (mb < 16)
  | .mxor md ma mb => decide (md < 16) && decide (ma < 16) && decide (mb < 16)
  | .mnot md ma => decide (md < 16) && decide (ma < 16)
  | .mpopc d ma => decide (d < 64) && decide (ma < 16)
  | .mfirst d ma => decide (d < 64) && decide (ma < 16)
  | .mset md cnt => decide (md < 16) && decide (cnt < 512)
  | .msetReg md gn => decide (md < 16) && decide (gn < 64)
  | .fexp2 e vd va mk => e.all (· < 2 ^ 32) && decide (vd < 32) && decide (va < 32) && decide (mk < 16)
  | .flog2 e vd va mk => e.all (· < 2 ^ 32) && decide (vd < 32) && decide (va < 32) && decide (mk < 16)
  | .frcp e vd va mk => e.all (· < 2 ^ 32) && decide (vd < 32) && decide (va < 32) && decide (mk < 16)
  | .frsq e vd va mk => e.all (· < 2 ^ 32) && decide (vd < 32) && decide (va < 32) && decide (mk < 16)
  | .mclaim kind first cnt => decide (kind < 4) && decide (first < 64) && decide (cnt < 64)
  | .mrel kind first cnt => decide (kind < 4) && decide (first < 64) && decide (cnt < 64)
  | .mfill e os grp an off => e.all (· < 2 ^ 32) && decide (os < 64) && decide (grp < 8) && decide (an < 16) && decide (off < 2048)
  | .mlatch lt os _ => decide (lt < 4) && decide (os < 64)
  | .mpush e lt row va _ _ => e.all (· < 2 ^ 32) && decide (lt < 4) && decide (row < 64) && decide (va < 32)
  | .mshift e os row va _ _ => e.all (· < 2 ^ 32) && decide (os < 64) && decide (row < 64) && decide (va < 32)
  | .macc e acc row os lt _ => e.all (· < 2 ^ 32) && decide (acc < 64) && decide (row < 64) && decide (os < 64) && decide (lt < 4)
  | .mdrain acc row vd tt part _ => decide (acc < 64) && decide (row < 64) && decide (vd < 32) && decide (tt < 16) && decide (part < 4)
  | .mzero acc => decide (acc < 64)
  | .mfmt fa fb _ _ ct _ _ => decide (fa < 16) && decide (fb < 16) && decide (ct < 4)
  | .qldm e q va => e.all (· < 2 ^ 32) && decide (q < 4) && decide (va < 32)
  | .qldk e q va => e.all (· < 2 ^ 32) && decide (q < 4) && decide (va < 32)
  | .qadd e vd va vb mk q => e.all (· < 2 ^ 32) && decide (vd < 32) && decide (va < 32) && decide (vb < 32) && decide (mk < 16) && decide (q < 4)
  | .qsub e vd va vb mk q => e.all (· < 2 ^ 32) && decide (vd < 32) && decide (va < 32) && decide (vb < 32) && decide (mk < 16) && decide (q < 4)
  | .qmul e vd va vb mk q => e.all (· < 2 ^ 32) && decide (vd < 32) && decide (va < 32) && decide (vb < 32) && decide (mk < 16) && decide (q < 4)
  | .qmac e vd va vb mk q => e.all (· < 2 ^ 32) && decide (vd < 32) && decide (va < 32) && decide (vb < 32) && decide (mk < 16) && decide (q < 4)
  | .qred e vd va mk q => e.all (· < 2 ^ 32) && decide (vd < 32) && decide (va < 32) && decide (mk < 16) && decide (q < 4)
  | .qbfly e vx vy vw mk q => e.all (· < 2 ^ 32) && decide (vx < 32) && decide (vy < 32) && decide (vw < 32) && decide (mk < 16) && decide (q < 4)
  | .qibfly e vx vy vw mk q => e.all (· < 2 ^ 32) && decide (vx < 32) && decide (vy < 32) && decide (vw < 32) && decide (mk < 16) && decide (q < 4)
  | .qcvtQ64I64 e vd va mk q => e.all (· < 2 ^ 32) && decide (vd < 32) && decide (va < 32) && decide (mk < 16) && decide (q < 4)
  | .qcvtI64Q64 e vd va mk q => e.all (· < 2 ^ 32) && decide (vd < 32) && decide (va < 32) && decide (mk < 16) && decide (q < 4)
  | .bperm e vd va mk stg _ => e.all (· < 2 ^ 32) && decide (vd < 32) && decide (va < 32) && decide (mk < 16) && decide (stg < 8)
  | .bpermi e vd va stg _ => e.all (· < 2 ^ 32) && decide (vd < 32) && decide (va < 32) && decide (stg < 8)
  | .vxperm e vd va vi mk _ => e.all (· < 2 ^ 32) && decide (vd < 32) && decide (va < 32) && decide (vi < 32) && decide (mk < 16)
  | .seqlv e lvl fld gn => e.all (· < 2 ^ 32) && decide (lvl < 8) && decide (fld < 8) && decide (gn < 64)
  | .seqgo d gs c => decide (d < 64) && decide (gs < 64) && decide (c < 64)
  | .tmov d gs c sz => decide (d < 64) && decide (gs < 64) && decide (c < 64) && decide (sz < 16)
  | .mcast e d gs c sz => decide (e < 2 ^ 32) && decide (d < 64) && decide (gs < 64) && decide (c < 64) && decide (sz < 16)
  | .send ch vs nb => decide (ch < 16) && decide (vs < 32) && decide (nb < 4)
  | .sendMem ch a nb => decide (ch < 16) && decide (a < 64) && decide (nb < 128)
  | .recv e ch vd nb tag gn => e.all (· < 2 ^ 32) && decide (ch < 16) && decide (vd < 32) && decide (nb < 4) && decide (tag < 16) && decide (gn < 64)
  | .recvMem e ch a nb gn => e.all (· < 2 ^ 32) && decide (ch < 16) && decide (a < 64) && decide (nb < 128) && decide (gn < 64)
  | .nmcmd a c => decide (a < 64) && decide (c < 64)
  | .nmfence => true
  | .fence scope => decide (scope < 8)
  | .atom op w a b rt => decide (op < 16) && decide (w < 4) && decide (a < 64) && decide (b < 64) && decide (rt < 64)
  | .atomr op w a b rt => decide (op < 16) && decide (w < 4) && decide (a < 64) && decide (b < 64) && decide (rt < 64)
  | .shalloc gs rt _ => decide (gs < 64) && decide (rt < 64)
  | .shfree a rt => decide (a < 64) && decide (rt < 64)
  | .stamp e scope a gv => e.all (· < 2 ^ 32) && decide (scope < 8) && decide (a < 64) && decide (gv < 64)
  | .monarm mon a => decide (mon < 4) && decide (a < 64)
  | .bndset bd lo hi mode _ => decide (bd < 16) && decide (lo < 64) && decide (hi < 64) && decide (mode < 4)
  | .ctset ct a => decide (ct < 4) && decide (a < 64)
  | .coll a c => decide (a < 64) && decide (c < 64)
  | .pref a sz => decide (a < 64) && decide (sz < 16)
  | .contextReady _ _ => true
  | .heldRecordPost _ _ => true
  | .deferredCauseTaken _ _ => true
  | .transferDataArrival _ => true
  | .barrierArrival _ => true
  | .stampWrite _ => true
  | .monarmReadReturn _ => true
  | .postedStorePerform _ => true
  | .beatArrival _ => true
  | .beatReoffer _ => true
  | .creditReturn _ => true
  | .nmcmdAccept _ => true
  | .nmcmdComplete _ => true
  | .nmfenceAnswer _ _ => true
  | .copyComplete _ => true
  | .mcastDelivery _ _ => true
  | .slowPathHandoff _ => true
  | .pageRequestReply _ => true
  | .atomicPerform _ => true
  | .shallocReply _ => true
  | .shfreeReply _ => true
  | .shelfSwitchFailure _ => true
  | .collRegistration _ => true
  | .chunkAcknowledged _ => true
  | .switchResult _ => true
  | .fallback _ => true
  | .intakeStep _ => true
  | .partStart _ => true
  | .taskComplete _ => true
  | .endedCauseRecord _ => true
  | .resume _ _ => true
  | .step _ _ => true
  | .suspend _ _ => true
  | .abort _ _ => true
  | .saveComplete _ => true
  | .saveAbandon _ => true
  | .loadComplete _ => true
  | .idleWake _ _ => true
  | .tqctlWrite _ _ => true
  | .tqconsWrite _ _ => true
  | .energywWrite _ _ _ => true
  | .gearwWrite _ _ _ => true
  | .fmtctlWrite _ _ _ => true
  | .registerWrite _ _ _ _ _ => true
  | .tableWalk _ _ => true
  | .counterAdd _ _ => true
  | .tlbinvComplete _ => true
  | .slotGrant _ _ => true
  | .slotTableSwitch _ => true
  | .partitionCreate _ => true
  | .fabricReceive _ _ _ _ _ _ => true
  | .peerAck _ => true
  | .linkUp _ _ _ _ _ => true
  | .flitReplay _ _ => true
  | .linkFailure _ _ => true
  | .linkRetrain _ _ _ _ => true
  | .destinationUnreachable _ => true
  | .reachableMark _ => true
  | .poisonConsumption _ _ _ _ => true
  | .patrolScrub _ => true
  | .gearChange _ => true
  | .gearChangeDone _ => true
  | .capControllerStep => true
  | .thermalHold _ => true
  | .thermalRelease _ => true
  | .emergencySave => true
  | .powerRemoval => true
  | .droopTrip _ => true
  | .droopRecovery _ => true
  | .hbmFrequencyChange _ _ => true
  | .retrainingPauseEnd _ => true
  | .ballastEstimate _ => true
  | .staticTick _ => true
  | .wearSwing _ _ => true
  | .wearFlashWrite => true
  | .orderlyShutdown => true
  | .restartRestore => true
  | .powerOn => true
  | .bootStageComplete _ => true
  | .fdoorSubmit _ _ _ _ => true
  | .capsetWrite _ => true
  | .checkpointStart => true
  | .checkpointPeriod _ => true
  | .periodicCheckpoint => true
  | .checkpointComplete => true
  | .attestationRequest _ => true
  | .attestationReportReady => true
  | .klotyQueueRecord _ => true
  | .hostWindowAccess _ _ _ => true
  | .expanderReturn _ => true
  | .hbm4Refresh _ => true
  | .chainPartialArrival _ => true
  | .partitionChange _ => true

/-- The conditions on one word that the spec puts on operands: their breach is the illegal-instruction trap (R113, R118). -/
def Instr.legal : Instr → Bool
  | .bundleIssue _ _ _ _ _ => true
  | .dictionaryReference _ _ _ _ _ => true
  | .idleBundle _ _ _ => true
  | .nop => true
  | .br _ => true
  | .brp _ _ _ => true
  | .brr _ => true
  | .call _ _ => true
  | .ret _ => true
  | .loop _ _ _ off => decide (off ≠ 0)
  | .loopEnd _ => true
  | .endk => true
  | .bwait e _ gn => (e == none || gn == 0)
  | .barv e _ _ scope tset => decide (scope < 6) && barvExt tset e
  | .binit e _ gn => (e == none || gn == 0) && e.all (· < 2 ^ 16)
  | .monwait e _ gn => (e == none || gn == 0)
  | .gear _ => true
  | .gearReg _ => true
  | .trap _ => true
  | .brk _ => true
  | .dlchk _ _ _ => true
  | .launch _ _ => true
  | .lqstat _ _ => true
  | .eret => true
  | .srdp _ sr idx => srdpSel sr idx
  | .swrp _ sr idx => swrpSel sr idx
  | .tlbinvPage _ _ => true
  | .tlbinvAll _ => true
  | .tlbinvWb _ _ => true
  | .ctxsvCtx _ _ _ => true
  | .ctxsvCore _ _ _ => true
  | .ctxldCtx _ _ _ => true
  | .ctxldCore _ _ _ => true
  | .trcctlOff => true
  | .trcctlRec _ => true
  | .trcctlBind _ => true
  | .idle => true
  | .add e _ _ b _ _ => (e == none || b == 0)
  | .sub e _ _ b _ _ => (e == none || b == 0)
  | .mul e _ _ b _ _ => (e == none || b == 0)
  | .and e _ _ b _ _ => (e == none || b == 0)
  | .or e _ _ b _ _ => (e == none || b == 0)
  | .xor e _ _ b _ _ => (e == none || b == 0)
  | .andn e _ _ b _ _ => (e == none || b == 0)
  | .shl e _ _ b _ _ => (e == none || b == 0)
  | .shr e _ _ b _ _ => (e == none || b == 0)
  | .sra e _ _ b _ _ => (e == none || b == 0)
  | .rot e _ _ b _ _ => (e == none || b == 0)
  | .mulh e _ _ b _ _ _ => (e == none || b == 0)
  | .div e _ _ b _ _ _ => (e == none || b == 0)
  | .rem e _ _ b _ _ _ => (e == none || b == 0)
  | .min e _ _ b _ _ _ => (e == none || b == 0)
  | .max e _ _ b _ _ _ => (e == none || b == 0)
  | .clz _ _ _ _ => true
  | .popc _ _ _ _ => true
  | .cmp e _ _ _ b _ _ _ => (e == none || b == 0)
  | .sel e _ _ b _ _ => (e == none || b == 0)
  | .ldi _ _ => true
  | .ldiExt _ _ => true
  | .ldiHi _ _ => true
  | .pand _ _ _ _ _ => true
  | .por _ _ _ _ _ => true
  | .pxor _ _ _ _ _ => true
  | .pnot _ _ _ => true
  | .srd _ sr idx _ _ => srdSel sr idx
  | .swr _ sr idx _ _ => swrSel sr idx
  | .amov _ _ _ => true
  | .aadd e _ _ gn => (e == none || gn == 0)
  | .aldi e _ _ imm => (e == none || imm == 0)
  | .astr e _ _ gn => (e == none || gn == 0)
  | .aget _ _ ss lvl => (ss || lvl == 0)
  | .aclr _ _ => true
  | .ld e _ _ sz sx off => !(sx && sz == 3) && (e == none || off == 0)
  | .st e _ _ _ off => (e == none || off == 0)
  | .vld e _ _ tag off => decide (tag < 12) && (e == none || off == 0)
  | .vst e _ _ tag mk off => decide (tag < 12) && (tag != 0 || mk == 0) && (e == none || off == 0)
  | .vldw e _ _ tag blk off => (if blk then tag == 7 else decide (tag < 12)) && (e == none || off == 0)
  | .vstw e _ _ tag blk off => (if blk then tag == 7 else decide (tag < 12)) && (e == none || off == 0)
  | .vgth _ _ _ _ _ tag => (tag == 3 || tag == 4 || tag == 10 || tag == 11)
  | .vsct _ _ _ _ _ tag => (tag == 3 || tag == 4 || tag == 10 || tag == 11)
  | .vjoin => true
  | .pld e _ _ off => (e == none || off == 0)
  | .pst e _ _ off => (e == none || off == 0)
  | .vadd e _ _ _ _ ft _ => intTag ft && holds 2 e
  | .vsub e _ _ _ _ ft _ => intTag ft && holds 2 e
  | .vmul e _ _ _ _ ft _ => intTag ft && holds 2 e
  | .vmulh e _ _ _ _ ft _ => intTag ft && holds 2 e
  | .vsadd e _ _ _ _ ft _ => intTag ft && holds 2 e
  | .vssub e _ _ _ _ ft _ => intTag ft && holds 2 e
  | .vmin e _ _ _ _ ft _ => intTag ft && holds 2 e
  | .vmax e _ _ _ _ ft _ => intTag ft && holds 2 e
  | .vabs e _ _ _ ft _ => intTag ft && holds 1 e
  | .vneg e _ _ _ ft _ => intTag ft && holds 1 e
  | .vand e _ _ _ mk ft u => decide (ft < 12) && (!u || intTag ft) && (ft != 0 || mk == 0) && holds 2 e
  | .vor e _ _ _ mk ft u => decide (ft < 12) && (!u || intTag ft) && (ft != 0 || mk == 0) && holds 2 e
  | .vxor e _ _ _ mk ft u => decide (ft < 12) && (!u || intTag ft) && (ft != 0 || mk == 0) && holds 2 e
  | .vandn e _ _ _ mk ft u => decide (ft < 12) && (!u || intTag ft) && (ft != 0 || mk == 0) && holds 2 e
  | .vshl e _ _ _ _ ft _ => intTag ft && holds 2 e
  | .vshr e _ _ _ _ ft _ => intTag ft && holds 2 e
  | .vsra e _ _ _ _ ft _ => intTag ft && holds 2 e
  | .vclz e _ _ _ ft _ => intTag ft && holds 1 e
  | .vpopc e _ _ _ ft _ => intTag ft && holds 1 e
  | .vcmp e _ _ _ cond ft _ => intTag ft && decide (cond < 6) && holds 2 e
  | .vfadd e _ _ _ _ ft => fpTag ft && holds 2 e
  | .vfsub e _ _ _ _ ft => fpTag ft && holds 2 e
  | .vfmul e _ _ _ _ ft => fpTag ft && holds 2 e
  | .vfma e _ _ _ _ ft => fpTag ft && e % 2 ^ 24 == 0
  | .vfms e _ _ _ _ ft => fpTag ft && e % 2 ^ 24 == 0
  | .vfnma e _ _ _ _ ft => fpTag ft && e % 2 ^ 24 == 0
  | .vfmin e _ _ _ _ ft => fpTag ft && holds 2 e
  | .vfmax e _ _ _ _ ft => fpTag ft && holds 2 e
  | .vfabs e _ _ _ ft => fpTag ft && holds 1 e
  | .vfneg e _ _ _ ft => fpTag ft && holds 1 e
  | .vfcmp e _ _ _ cond ft => fpTag ft && decide (cond < 7) && holds 2 e
  | .vfcls e _ _ cls ft => fpTag ft && cls != 0 && holds 1 e
  | .vfexp e _ _ _ ft => fpTag ft && holds 1 e
  | .vfscl e _ _ _ _ ft => fpTag ft && holds 2 e
  | .vcvt e _ _ tt ft part su du => decide (1 ≤ tt ∧ tt ≤ 10 ∧ 1 ≤ ft ∧ ft ≤ 10 ∧ tt ≠ ft) && (!su || intTag ft) && (!du || intTag tt) && decide (part < cvtParts ft tt) && extX 1 8 e
  | .vcvts e _ _ _ tt ft => fpTag ft && srPair ft tt && extX 2 8 e && decide (e.getD 0 % 8 < cvtParts ft tt)
  | .vquant e _ _ _ part ft => fpTag ft && decide (part < 256 / tagCount ft) && holds 1 e
  | .vquantBlk e vd _ _ ft => fpTag ft && vd % 2 == 0 && holds 1 e
  | .vdeq e _ _ tt _ part => fpTag tt && decide (part < 256 / tagCount tt) && holds 1 e
  | .vdeqBlk e _ _ tt part => fpTag tt && decide (part < 256 / tagCount tt) && holds 1 e
  | .vsel e _ _ _ _ ft u => decide (1 ≤ ft ∧ ft < 12) && (!u || intTag ft) && holds 2 e
  | .vmov e _ _ mk ft u => decide (ft < 12) && (!u || intTag ft) && (ft != 0 || mk == 0) && holds 1 e
  | .vbcast _ _ _ ft u => decide (1 ≤ ft ∧ ft < 12) && (!u || intTag ft)
  | .vbcastRow e _ _ _ ft => decide (1 ≤ ft ∧ ft < 12) && holds 1 e
  | .vbcastCol e _ _ _ ft => decide (1 ≤ ft ∧ ft < 12) && holds 1 e
  | .vins _ _ idx ft u => decide (1 ≤ ft ∧ ft < 12) && (!u || intTag ft) && decide (idx < tagCount ft)
  | .vext e _ _ idx ft u => decide (1 ≤ ft ∧ ft < 12) && (!u || intTag ft) && decide (idx < tagCount ft) && holds 1 e
  | .vshape rc => rc != 7
  | .vtag e _ _ tt => decide (tt < 12) && holds 1 e
  | .vrsum e _ _ _ ft u _ => (intTag ft || fpTag ft) && (!u || intTag ft) && holds 1 e
  | .vrmax e _ _ _ ft u _ => (intTag ft || fpTag ft) && (!u || intTag ft) && holds 1 e
  | .vrmin e _ _ _ ft u _ => (intTag ft || fpTag ft) && (!u || intTag ft) && holds 1 e
  | .vxrd e _ _ _ _ _ _ => holds 2 e
  | .vrot e _ _ _ ft u => decide (1 ≤ ft ∧ ft < 12) && (!u || intTag ft) && holds 1 e
  | .vspush e _ _ _ => holds 1 e
  | .vspop _ _ _ => true
  | .vspopEnd _ _ _ => true
  | .vsbal sqa sqb => sqa != sqb
  | .mand _ _ _ => true
  | .mor _ _ _ => true
  | .mxor _ _ _ => true
  | .mnot _ _ => true
  | .mpopc _ _ => true
  | .mfirst _ _ => true
  | .mset _ cnt => decide (cnt ≤ 256)
  | .msetReg _ _ => true
  | .fexp2 e _ _ _ => holds 1 e
  | .flog2 e _ _ _ => holds 1 e
  | .frcp e _ _ _ => holds 1 e
  | .frsq e _ _ _ => holds 1 e
  | .mclaim kind first cnt => decide (kind < 3) && decide (first + cnt < unitCount kind)
  | .mrel kind first cnt => decide (kind < 3) && decide (first + cnt < unitCount kind)
  | .mfill e _ _ _ off => (e == none || off == 0) && e.all (· < 2 ^ 29)
  | .mlatch _ os blk => (!blk || os % 2 == 0)
  | .mpush e _ _ va _ blk => (!blk || va % 2 == 0) && holds (if blk then 0 else 1) e
  | .mshift e os _ va _ blk => (!blk || va % 2 == 0) && (!blk || os % 2 == 0) && holds (if blk then 0 else 1) e
  | .macc e acc _ _ _ _ => decide (acc < 48) && e.all (· < 64)
  | .mdrain acc _ _ tt part _ => decide (acc < 48) && drainTag tt && decide (part < tagCount tt / 64)
  | .mzero acc => decide (acc < 48)
  | .mfmt fa fb ca cb ct ua ub => mfmtOk fa fb ca cb ct ua ub
  | .qldm e _ _ => holds 1 e
  | .qldk e _ _ => holds 1 e
  | .qadd e _ _ _ _ _ => holds 2 e
  | .qsub e _ _ _ _ _ => holds 2 e
  | .qmul e _ _ _ _ _ => holds 2 e
  | .qmac e _ _ _ _ _ => holds 2 e
  | .qred e _ _ _ _ => holds 1 e
  | .qbfly e vx vy _ _ _ => (vx != vy) && holds 3 e
  | .qibfly e vx vy _ _ _ => (vx != vy) && holds 3 e
  | .qcvtQ64I64 e _ _ _ _ => holds 1 e
  | .qcvtI64Q64 e _ _ _ _ => holds 1 e
  | .bperm e _ _ _ stg w => decide (stg < if w then 5 else 6) && holds 1 e
  | .bpermi e _ _ stg w => decide (stg < if w then 5 else 6) && holds 1 e
  | .vxperm e _ _ _ _ _ => holds 2 e
  | .seqlv e lvl fld gn => decide (lvl < 7) && decide (fld < if lvl = 6 then 2 else 7) && (e == none || gn == 0)
  | .seqgo _ _ _ => true
  | .tmov _ _ _ sz => decide (sz ≤ 10)
  | .mcast e _ _ _ sz => decide (sz ≤ 10) && decide (e < 256)
  | .send _ _ _ => true
  | .sendMem _ _ _ => true
  | .recv e _ _ _ tag gn => decide (tag < 12) && (e == none || gn == 0)
  | .recvMem e _ _ _ gn => (e == none || gn == 0)
  | .nmcmd _ _ => true
  | .nmfence => true
  | .fence scope => decide (scope < 6)
  | .atom op w _ b _ => atomOk op w b
  | .atomr op w _ b _ => atomOk op w b
  | .shalloc _ rt _ => rt != 0
  | .shfree _ rt => rt != 0
  | .stamp e scope _ gv => decide (scope < 6) && (e == none || gv == 0)
  | .monarm _ _ => true
  | .bndset _ _ _ _ _ => true
  | .ctset _ _ => true
  | .coll _ _ => true
  | .pref _ _ => true
  | .contextReady _ _ => true
  | .heldRecordPost _ _ => true
  | .deferredCauseTaken _ _ => true
  | .transferDataArrival _ => true
  | .barrierArrival _ => true
  | .stampWrite _ => true
  | .monarmReadReturn _ => true
  | .postedStorePerform _ => true
  | .beatArrival _ => true
  | .beatReoffer _ => true
  | .creditReturn _ => true
  | .nmcmdAccept _ => true
  | .nmcmdComplete _ => true
  | .nmfenceAnswer _ _ => true
  | .copyComplete _ => true
  | .mcastDelivery _ _ => true
  | .slowPathHandoff _ => true
  | .pageRequestReply _ => true
  | .atomicPerform _ => true
  | .shallocReply _ => true
  | .shfreeReply _ => true
  | .shelfSwitchFailure _ => true
  | .collRegistration _ => true
  | .chunkAcknowledged _ => true
  | .switchResult _ => true
  | .fallback _ => true
  | .intakeStep _ => true
  | .partStart _ => true
  | .taskComplete _ => true
  | .endedCauseRecord _ => true
  | .resume _ _ => true
  | .step _ _ => true
  | .suspend _ _ => true
  | .abort _ _ => true
  | .saveComplete _ => true
  | .saveAbandon _ => true
  | .loadComplete _ => true
  | .idleWake _ _ => true
  | .tqctlWrite _ _ => true
  | .tqconsWrite _ _ => true
  | .energywWrite _ _ _ => true
  | .gearwWrite _ _ _ => true
  | .fmtctlWrite _ _ _ => true
  | .registerWrite _ _ _ _ _ => true
  | .tableWalk _ _ => true
  | .counterAdd _ _ => true
  | .tlbinvComplete _ => true
  | .slotGrant _ _ => true
  | .slotTableSwitch _ => true
  | .partitionCreate _ => true
  | .fabricReceive _ _ _ _ _ _ => true
  | .peerAck _ => true
  | .linkUp _ _ _ _ _ => true
  | .flitReplay _ _ => true
  | .linkFailure _ _ => true
  | .linkRetrain _ _ _ _ => true
  | .destinationUnreachable _ => true
  | .reachableMark _ => true
  | .poisonConsumption _ _ _ _ => true
  | .patrolScrub _ => true
  | .gearChange _ => true
  | .gearChangeDone _ => true
  | .capControllerStep => true
  | .thermalHold _ => true
  | .thermalRelease _ => true
  | .emergencySave => true
  | .powerRemoval => true
  | .droopTrip _ => true
  | .droopRecovery _ => true
  | .hbmFrequencyChange _ _ => true
  | .retrainingPauseEnd _ => true
  | .ballastEstimate _ => true
  | .staticTick _ => true
  | .wearSwing _ _ => true
  | .wearFlashWrite => true
  | .orderlyShutdown => true
  | .restartRestore => true
  | .powerOn => true
  | .bootStageComplete _ => true
  | .fdoorSubmit _ _ _ _ => true
  | .capsetWrite _ => true
  | .checkpointStart => true
  | .checkpointPeriod _ => true
  | .periodicCheckpoint => true
  | .checkpointComplete => true
  | .attestationRequest _ => true
  | .attestationReportReady => true
  | .klotyQueueRecord _ => true
  | .hostWindowAccess _ _ _ => true
  | .expanderReturn _ => true
  | .hbm4Refresh _ => true
  | .chainPartialArrival _ => true
  | .partitionChange _ => true

/-- A well-formed instruction: its fields fit and its operands are legal. -/
def Instr.wf (i : Instr) : Bool := i.bounded && i.legal

end Sys2Proof
end

