-- ==== Sys2Proof/Decode.lean ====
section
/-!
DEFINITION. Decoding: syllables (R113, R114, R117, R118), bundle headers and bundles (R106 to R110), and the encoder
written from the same layouts.  A syllable decodes when its opcode is assigned, every bit outside its fields is as the
layout says, its extension stands where the layout wants it, and its operands are legal; every other word is refused
by name.  `decodeTableWord` reads a lone 32-bit word, whose slot the word does not give (DEDUCED, log entry 6).
-/

namespace Sys2Proof

/-- Why a word or a bundle is no instruction. -/
inductive DecodeErr where
  /-- Unassigned opcode of its slot: illegal-instruction trap (R118). -/
  | unassigned
  /-- A bit outside the fields is set, or EXT is set where no extension is defined (R113, R114). -/
  | reserved
  /-- The instruction requires its extension (R114). -/
  | extMissing
  /-- An operand value the description makes illegal (R118). -/
  | operand
  /-- `VSPUSH`, `VSPOP` or `VSBAL` in V0 (R118). -/
  | v1Only
  /-- A header that breaks R108: illegal-bundle trap. -/
  | header
  /-- The bytes of the bundle are not all inside the text: instruction-fetch fault (R118). -/
  | short
  deriving DecidableEq, Repr

/-- Bits `lo + n - 1 : lo` of a word (R3). -/
def bitsAt (w lo n : Nat) : Nat := w / 2 ^ lo % 2 ^ n
/-- Bit `lo` of a word. -/
def bitAt (w lo : Nat) : Bool := bitsAt w lo 1 == 1
/-- A word: constant bits, fields at their low bits, and EXT in bit 31 (R113). -/
def encWord (const : Nat) (fields : List (Nat × Nat)) (e : Option Nat) : Nat :=
  fields.foldl (fun acc f => acc + f.2 * 2 ^ f.1) const + (if e.isSome then 2 ^ 31 else 0)

/-- The slot map an instruction stands in (R117): 0 B, 1 S, 2 A, 3 L, 4 V, 5 F, 6 M, 7 N, 8 C; 9 for what is no syllable. -/
def Instr.map : Instr → Nat
  | .bundleIssue _ _ _ _ _ => 9
  | .dictionaryReference _ _ _ _ _ => 9
  | .idleBundle _ _ _ => 9
  | .nop => 0
  | .br _ => 0
  | .brp _ _ _ => 0
  | .brr _ => 0
  | .call _ _ => 0
  | .ret _ => 0
  | .loop _ _ _ _ => 0
  | .loopEnd _ => 0
  | .endk => 0
  | .bwait _ _ _ => 0
  | .barv _ _ _ _ _ => 0
  | .binit _ _ _ => 0
  | .monwait _ _ _ => 0
  | .gear _ => 0
  | .gearReg _ => 0
  | .trap _ => 0
  | .brk _ => 0
  | .dlchk _ _ _ => 0
  | .launch _ _ => 0
  | .lqstat _ _ => 0
  | .eret => 0
  | .srdp _ _ _ => 0
  | .swrp _ _ _ => 0
  | .tlbinvPage _ _ => 0
  | .tlbinvAll _ => 0
  | .tlbinvWb _ _ => 0
  | .ctxsvCtx _ _ _ => 0
  | .ctxsvCore _ _ _ => 0
  | .ctxldCtx _ _ _ => 0
  | .ctxldCore _ _ _ => 0
  | .trcctlOff => 0
  | .trcctlRec _ => 0
  | .trcctlBind _ => 0
  | .idle => 0
  | .add _ _ _ _ _ _ => 1
  | .sub _ _ _ _ _ _ => 1
  | .mul _ _ _ _ _ _ => 1
  | .and _ _ _ _ _ _ => 1
  | .or _ _ _ _ _ _ => 1
  | .xor _ _ _ _ _ _ => 1
  | .andn _ _ _ _ _ _ => 1
  | .shl _ _ _ _ _ _ => 1
  | .shr _ _ _ _ _ _ => 1
  | .sra _ _ _ _ _ _ => 1
  | .rot _ _ _ _ _ _ => 1
  | .mulh _ _ _ _ _ _ _ => 1
  | .div _ _ _ _ _ _ _ => 1
  | .rem _ _ _ _ _ _ _ => 1
  | .min _ _ _ _ _ _ _ => 1
  | .max _ _ _ _ _ _ _ => 1
  | .clz _ _ _ _ => 1
  | .popc _ _ _ _ => 1
  | .cmp _ _ _ _ _ _ _ _ => 1
  | .sel _ _ _ _ _ _ => 1
  | .ldi _ _ => 1
  | .ldiExt _ _ => 1
  | .ldiHi _ _ => 1
  | .pand _ _ _ _ _ => 1
  | .por _ _ _ _ _ => 1
  | .pxor _ _ _ _ _ => 1
  | .pnot _ _ _ => 1
  | .srd _ _ _ _ _ => 1
  | .swr _ _ _ _ _ => 1
  | .amov _ _ _ => 2
  | .aadd _ _ _ _ => 2
  | .aldi _ _ _ _ => 2
  | .astr _ _ _ _ => 2
  | .aget _ _ _ _ => 2
  | .aclr _ _ => 2
  | .ld _ _ _ _ _ _ => 3
  | .st _ _ _ _ _ => 3
  | .vld _ _ _ _ _ => 3
  | .vst _ _ _ _ _ _ => 3
  | .vldw _ _ _ _ _ _ => 3
  | .vstw _ _ _ _ _ _ => 3
  | .vgth _ _ _ _ _ _ => 3
  | .vsct _ _ _ _ _ _ => 3
  | .vjoin => 3
  | .pld _ _ _ _ => 3
  | .pst _ _ _ _ => 3
  | .vadd _ _ _ _ _ _ _ => 4
  | .vsub _ _ _ _ _ _ _ => 4
  | .vmul _ _ _ _ _ _ _ => 4
  | .vmulh _ _ _ _ _ _ _ => 4
  | .vsadd _ _ _ _ _ _ _ => 4
  | .vssub _ _ _ _ _ _ _ => 4
  | .vmin _ _ _ _ _ _ _ => 4
  | .vmax _ _ _ _ _ _ _ => 4
  | .vabs _ _ _ _ _ _ => 4
  | .vneg _ _ _ _ _ _ => 4
  | .vand _ _ _ _ _ _ _ => 4
  | .vor _ _ _ _ _ _ _ => 4
  | .vxor _ _ _ _ _ _ _ => 4
  | .vandn _ _ _ _ _ _ _ => 4
  | .vshl _ _ _ _ _ _ _ => 4
  | .vshr _ _ _ _ _ _ _ => 4
  | .vsra _ _ _ _ _ _ _ => 4
  | .vclz _ _ _ _ _ _ => 4
  | .vpopc _ _ _ _ _ _ => 4
  | .vcmp _ _ _ _ _ _ _ => 4
  | .vfadd _ _ _ _ _ _ => 4
  | .vfsub _ _ _ _ _ _ => 4
  | .vfmul _ _ _ _ _ _ => 4
  | .vfma _ _ _ _ _ _ => 4
  | .vfms _ _ _ _ _ _ => 4
  | .vfnma _ _ _ _ _ _ => 4
  | .vfmin _ _ _ _ _ _ => 4
  | .vfmax _ _ _ _ _ _ => 4
  | .vfabs _ _ _ _ _ => 4
  | .vfneg _ _ _ _ _ => 4
  | .vfcmp _ _ _ _ _ _ => 4
  | .vfcls _ _ _ _ _ => 4
  | .vfexp _ _ _ _ _ => 4
  | .vfscl _ _ _ _ _ _ => 4
  | .vcvt _ _ _ _ _ _ _ _ => 4
  | .vcvts _ _ _ _ _ _ => 4
  | .vquant _ _ _ _ _ _ => 4
  | .vquantBlk _ _ _ _ _ => 4
  | .vdeq _ _ _ _ _ _ => 4
  | .vdeqBlk _ _ _ _ _ => 4
  | .vsel _ _ _ _ _ _ _ => 4
  | .vmov _ _ _ _ _ _ => 4
  | .vbcast _ _ _ _ _ => 4
  | .vbcastRow _ _ _ _ _ => 4
  | .vbcastCol _ _ _ _ _ => 4
  | .vins _ _ _ _ _ => 4
  | .vext _ _ _ _ _ _ => 4
  | .vshape _ => 4
  | .vtag _ _ _ _ => 4
  | .vrsum _ _ _ _ _ _ _ => 4
  | .vrmax _ _ _ _ _ _ _ => 4
  | .vrmin _ _ _ _ _ _ _ => 4
  | .vxrd _ _ _ _ _ _ _ => 4
  | .vrot _ _ _ _ _ _ => 4
  | .vspush _ _ _ _ => 4
  | .vspop _ _ _ => 4
  | .vspopEnd _ _ _ => 4
  | .vsbal _ _ => 4
  | .mand _ _ _ => 4
  | .mor _ _ _ => 4
  | .mxor _ _ _ => 4
  | .mnot _ _ => 4
  | .mpopc _ _ => 4
  | .mfirst _ _ => 4
  | .mset _ _ => 4
  | .msetReg _ _ => 4
  | .fexp2 _ _ _ _ => 5
  | .flog2 _ _ _ _ => 5
  | .frcp _ _ _ _ => 5
  | .frsq _ _ _ _ => 5
  | .mclaim _ _ _ => 6
  | .mrel _ _ _ => 6
  | .mfill _ _ _ _ _ => 6
  | .mlatch _ _ _ => 6
  | .mpush _ _ _ _ _ _ => 6
  | .mshift _ _ _ _ _ _ => 6
  | .macc _ _ _ _ _ _ => 6
  | .mdrain _ _ _ _ _ _ => 6
  | .mzero _ => 6
  | .mfmt _ _ _ _ _ _ _ => 6
  | .qldm _ _ _ => 7
  | .qldk _ _ _ => 7
  | .qadd _ _ _ _ _ _ => 7
  | .qsub _ _ _ _ _ _ => 7
  | .qmul _ _ _ _ _ _ => 7
  | .qmac _ _ _ _ _ _ => 7
  | .qred _ _ _ _ _ => 7
  | .qbfly _ _ _ _ _ _ => 7
  | .qibfly _ _ _ _ _ _ => 7
  | .qcvtQ64I64 _ _ _ _ _ => 7
  | .qcvtI64Q64 _ _ _ _ _ => 7
  | .bperm _ _ _ _ _ _ => 7
  | .bpermi _ _ _ _ _ => 7
  | .vxperm _ _ _ _ _ _ => 7
  | .seqlv _ _ _ _ => 8
  | .seqgo _ _ _ => 8
  | .tmov _ _ _ _ => 8
  | .mcast _ _ _ _ _ => 8
  | .send _ _ _ => 8
  | .sendMem _ _ _ => 8
  | .recv _ _ _ _ _ _ => 8
  | .recvMem _ _ _ _ _ => 8
  | .nmcmd _ _ => 8
  | .nmfence => 8
  | .fence _ => 8
  | .atom _ _ _ _ _ => 8
  | .atomr _ _ _ _ _ => 8
  | .shalloc _ _ _ => 8
  | .shfree _ _ => 8
  | .stamp _ _ _ _ => 8
  | .monarm _ _ => 8
  | .bndset _ _ _ _ _ => 8
  | .ctset _ _ => 8
  | .coll _ _ => 8
  | .pref _ _ => 8
  | .contextReady _ _ => 9
  | .heldRecordPost _ _ => 9
  | .deferredCauseTaken _ _ => 9
  | .transferDataArrival _ => 9
  | .barrierArrival _ => 9
  | .stampWrite _ => 9
  | .monarmReadReturn _ => 9
  | .postedStorePerform _ => 9
  | .beatArrival _ => 9
  | .beatReoffer _ => 9
  | .creditReturn _ => 9
  | .nmcmdAccept _ => 9
  | .nmcmdComplete _ => 9
  | .nmfenceAnswer _ _ => 9
  | .copyComplete _ => 9
  | .mcastDelivery _ _ => 9
  | .slowPathHandoff _ => 9
  | .pageRequestReply _ => 9
  | .atomicPerform _ => 9
  | .shallocReply _ => 9
  | .shfreeReply _ => 9
  | .shelfSwitchFailure _ => 9
  | .collRegistration _ => 9
  | .chunkAcknowledged _ => 9
  | .switchResult _ => 9
  | .fallback _ => 9
  | .intakeStep _ => 9
  | .partStart _ => 9
  | .taskComplete _ => 9
  | .endedCauseRecord _ => 9
  | .resume _ _ => 9
  | .step _ _ => 9
  | .suspend _ _ => 9
  | .abort _ _ => 9
  | .saveComplete _ => 9
  | .saveAbandon _ => 9
  | .loadComplete _ => 9
  | .idleWake _ _ => 9
  | .tqctlWrite _ _ => 9
  | .tqconsWrite _ _ => 9
  | .energywWrite _ _ _ => 9
  | .gearwWrite _ _ _ => 9
  | .fmtctlWrite _ _ _ => 9
  | .registerWrite _ _ _ _ _ => 9
  | .tableWalk _ _ => 9
  | .counterAdd _ _ => 9
  | .tlbinvComplete _ => 9
  | .slotGrant _ _ => 9
  | .slotTableSwitch _ => 9
  | .partitionCreate _ => 9
  | .fabricReceive _ _ _ _ _ _ => 9
  | .peerAck _ => 9
  | .linkUp _ _ _ _ _ => 9
  | .flitReplay _ _ => 9
  | .linkFailure _ _ => 9
  | .linkRetrain _ _ _ _ => 9
  | .destinationUnreachable _ => 9
  | .reachableMark _ => 9
  | .poisonConsumption _ _ _ _ => 9
  | .patrolScrub _ => 9
  | .gearChange _ => 9
  | .gearChangeDone _ => 9
  | .capControllerStep => 9
  | .thermalHold _ => 9
  | .thermalRelease _ => 9
  | .emergencySave => 9
  | .powerRemoval => 9
  | .droopTrip _ => 9
  | .droopRecovery _ => 9
  | .hbmFrequencyChange _ _ => 9
  | .retrainingPauseEnd _ => 9
  | .ballastEstimate _ => 9
  | .staticTick _ => 9
  | .wearSwing _ _ => 9
  | .wearFlashWrite => 9
  | .orderlyShutdown => 9
  | .restartRestore => 9
  | .powerOn => 9
  | .bootStageComplete _ => 9
  | .fdoorSubmit _ _ _ _ => 9
  | .capsetWrite _ => 9
  | .checkpointStart => 9
  | .checkpointPeriod _ => 9
  | .periodicCheckpoint => 9
  | .checkpointComplete => 9
  | .attestationRequest _ => 9
  | .attestationReportReady => 9
  | .klotyQueueRecord _ => 9
  | .hostWindowAccess _ _ _ => 9
  | .expanderReturn _ => 9
  | .hbm4Refresh _ => 9
  | .chainPartialArrival _ => 9
  | .partitionChange _ => 9

/-- The word and extension of a syllable, from the layouts of chapters 06 to 09; `none` for what is no syllable. -/
def Instr.encode : Instr → Option (Nat × Option Nat)
  | .bundleIssue _ _ _ _ _ => none
  | .dictionaryReference _ _ _ _ _ => none
  | .idleBundle _ _ _ => none
  | .nop => some (encWord 0x00000000 [] none, none)
  | .br off => some (encWord 0x01000000 [(0, off)] none, none)
  | .brp p pn off => some (encWord 0x02000000 [(20, p), (19, pn.toNat), (0, off)] none, none)
  | .brr a => some (encWord 0x03000000 [(18, a)] none, none)
  | .call link off => some (encWord 0x04000000 [(18, link), (0, off)] none, none)
  | .ret a => some (encWord 0x05000000 [(18, a)] none, none)
  | .loop lvl lcn pin off => some (encWord 0x06000000 [(22, lvl), (20, lcn), (19, pin.toNat), (0, off)] none, none)
  | .loopEnd lvl => some (encWord 0x06000000 [(22, lvl)] none, none)
  | .endk => some (encWord 0x07000000 [] none, none)
  | .bwait e bar gn => some (encWord 0x08000000 [(13, bar), (7, gn)] e, e)
  | .barv e bar gn scope tset => some (encWord 0x09000000 [(13, bar), (7, gn), (4, scope), (1, tset)] e, e)
  | .binit e bar gn => some (encWord 0x0A000000 [(13, bar), (7, gn)] e, e)
  | .monwait e mon gn => some (encWord 0x0B000000 [(22, mon), (16, gn)] e, e)
  | .gear gr => some (encWord 0x0C000000 [(22, gr)] none, none)
  | .gearReg gn => some (encWord 0x0C200000 [(15, gn)] none, none)
  | .trap code => some (encWord 0x0D000000 [(16, code)] none, none)
  | .brk code => some (encWord 0x0E000000 [(16, code)] none, none)
  | .dlchk pd gn t => some (encWord 0x0F000000 [(20, pd), (14, gn), (13, t.toNat)] none, none)
  | .launch a pri => some (encWord 0x10000000 [(18, a), (16, pri)] none, none)
  | .lqstat d pri => some (encWord 0x11000000 [(18, d), (16, pri)] none, none)
  | .eret => some (encWord 0x60000000 [] none, none)
  | .srdp d sr idx => some (encWord 0x61000000 [(18, d), (10, sr), (6, idx)] none, none)
  | .swrp a sr idx => some (encWord 0x62000000 [(18, a), (10, sr), (6, idx)] none, none)
  | .tlbinvPage a c => some (encWord 0x63000000 [(18, a), (12, c)] none, none)
  | .tlbinvAll c => some (encWord 0x63000400 [(12, c)] none, none)
  | .tlbinvWb a c => some (encWord 0x63000800 [(18, a), (12, c)] none, none)
  | .ctxsvCtx t a c => some (encWord 0x64000000 [(18, t), (12, a), (6, c)] none, none)
  | .ctxsvCore t a c => some (encWord 0x64000010 [(18, t), (12, a), (6, c)] none, none)
  | .ctxldCtx t a c => some (encWord 0x65000000 [(18, t), (12, a), (6, c)] none, none)
  | .ctxldCore t a c => some (encWord 0x65000010 [(18, t), (12, a), (6, c)] none, none)
  | .trcctlOff => some (encWord 0x66000000 [] none, none)
  | .trcctlRec a => some (encWord 0x66010000 [(18, a)] none, none)
  | .trcctlBind a => some (encWord 0x66020000 [(18, a)] none, none)
  | .idle => some (encWord 0x67000000 [] none, none)
  | .add e d a b p pn => some (encWord 0x00000000 [(18, d), (12, a), (6, b), (2, p), (1, pn.toNat)] e, e)
  | .sub e d a b p pn => some (encWord 0x01000000 [(18, d), (12, a), (6, b), (2, p), (1, pn.toNat)] e, e)
  | .mul e d a b p pn => some (encWord 0x02000000 [(18, d), (12, a), (6, b), (2, p), (1, pn.toNat)] e, e)
  | .and e d a b p pn => some (encWord 0x08000000 [(18, d), (12, a), (6, b), (2, p), (1, pn.toNat)] e, e)
  | .or e d a b p pn => some (encWord 0x09000000 [(18, d), (12, a), (6, b), (2, p), (1, pn.toNat)] e, e)
  | .xor e d a b p pn => some (encWord 0x0A000000 [(18, d), (12, a), (6, b), (2, p), (1, pn.toNat)] e, e)
  | .andn e d a b p pn => some (encWord 0x0B000000 [(18, d), (12, a), (6, b), (2, p), (1, pn.toNat)] e, e)
  | .shl e d a b p pn => some (encWord 0x0C000000 [(18, d), (12, a), (6, b), (2, p), (1, pn.toNat)] e, e)
  | .shr e d a b p pn => some (encWord 0x0D000000 [(18, d), (12, a), (6, b), (2, p), (1, pn.toNat)] e, e)
  | .sra e d a b p pn => some (encWord 0x0E000000 [(18, d), (12, a), (6, b), (2, p), (1, pn.toNat)] e, e)
  | .rot e d a b p pn => some (encWord 0x0F000000 [(18, d), (12, a), (6, b), (2, p), (1, pn.toNat)] e, e)
  | .mulh e d a b p pn u => some (encWord 0x03000000 [(18, d), (12, a), (6, b), (2, p), (1, pn.toNat), (0, u.toNat)] e, e)
  | .div e d a b p pn u => some (encWord 0x04000000 [(18, d), (12, a), (6, b), (2, p), (1, pn.toNat), (0, u.toNat)] e, e)
  | .rem e d a b p pn u => some (encWord 0x05000000 [(18, d), (12, a), (6, b), (2, p), (1, pn.toNat), (0, u.toNat)] e, e)
  | .min e d a b p pn u => some (encWord 0x12000000 [(18, d), (12, a), (6, b), (2, p), (1, pn.toNat), (0, u.toNat)] e, e)
  | .max e d a b p pn u => some (encWord 0x13000000 [(18, d), (12, a), (6, b), (2, p), (1, pn.toNat), (0, u.toNat)] e, e)
  | .clz d a p pn => some (encWord 0x10000000 [(18, d), (12, a), (2, p), (1, pn.toNat)] none, none)
  | .popc d a p pn => some (encWord 0x11000000 [(18, d), (12, a), (2, p), (1, pn.toNat)] none, none)
  | .cmp e pd cond a b p pn u => some (encWord 0x14000000 [(20, pd), (18, cond), (12, a), (6, b), (2, p), (1, pn.toNat), (0, u.toNat)] e, e)
  | .sel e d a b ps pn => some (encWord 0x15000000 [(18, d), (12, a), (6, b), (2, ps), (1, pn.toNat)] e, e)
  | .ldi d imm => some (encWord 0x18000000 [(18, d), (0, imm)] none, none)
  | .ldiExt e d => some (encWord 0x18000000 [(18, d)] (some e), some e)
  | .ldiHi e d => some (encWord 0x18020000 [(18, d)] (some e), some e)
  | .pand pd pa pb na nb => some (encWord 0x1C000000 [(20, pd), (16, pa), (12, pb), (11, na.toNat), (10, nb.toNat)] none, none)
  | .por pd pa pb na nb => some (encWord 0x1D000000 [(20, pd), (16, pa), (12, pb), (11, na.toNat), (10, nb.toNat)] none, none)
  | .pxor pd pa pb na nb => some (encWord 0x1E000000 [(20, pd), (16, pa), (12, pb), (11, na.toNat), (10, nb.toNat)] none, none)
  | .pnot pd pa na => some (encWord 0x1F000000 [(20, pd), (16, pa), (11, na.toNat)] none, none)
  | .srd d sr idx p pn => some (encWord 0x20000000 [(18, d), (10, sr), (6, idx), (2, p), (1, pn.toNat)] none, none)
  | .swr a sr idx p pn => some (encWord 0x21000000 [(18, a), (10, sr), (6, idx), (2, p), (1, pn.toNat)] none, none)
  | .amov ad as str => some (encWord 0x00000000 [(20, ad), (16, as), (15, str.toNat)] none, none)
  | .aadd e ad as gn => some (encWord 0x01000000 [(20, ad), (16, as), (10, gn)] e, e)
  | .aldi e ad gn imm => some (encWord 0x02000000 [(20, ad), (14, gn), (0, imm)] e, e)
  | .astr e ad lvl gn => some (encWord 0x03000000 [(20, ad), (18, lvl), (12, gn)] e, e)
  | .aget d as ss lvl => some (encWord 0x04000000 [(18, d), (14, as), (13, ss.toNat), (11, lvl)] none, none)
  | .aclr mask adr => some (encWord 0x05000000 [(8, mask), (7, adr.toNat)] none, none)
  | .ld e d an sz sx off => some (encWord 0x00000000 [(18, d), (14, an), (12, sz), (11, sx.toNat), (0, off)] e, e)
  | .st e gs an sz off => some (encWord 0x01000000 [(18, gs), (14, an), (12, sz), (0, off)] e, e)
  | .vld e vd an tag off => some (encWord 0x02000000 [(19, vd), (15, an), (11, tag), (0, off)] e, e)
  | .vst e vs an tag mk off => some (encWord 0x03000000 [(19, vs), (15, an), (11, tag), (7, mk), (0, off)] e, e)
  | .vldw e pr an tag blk off => some (encWord 0x04000000 [(20, pr), (16, an), (12, tag), (11, blk.toNat), (0, off)] e, e)
  | .vstw e pr an tag blk off => some (encWord 0x05000000 [(20, pr), (16, an), (12, tag), (11, blk.toNat), (0, off)] e, e)
  | .vgth e vd vi an mk tag => some (encWord 0x06000000 [(19, vd), (14, vi), (10, an), (6, mk), (2, tag)] e, e)
  | .vsct e vs vi an mk tag => some (encWord 0x07000000 [(19, vs), (14, vi), (10, an), (6, mk), (2, tag)] e, e)
  | .vjoin => some (encWord 0x08000000 [] none, none)
  | .pld e md an off => some (encWord 0x09000000 [(20, md), (16, an), (0, off)] e, e)
  | .pst e ms an off => some (encWord 0x0A000000 [(20, ms), (16, an), (0, off)] e, e)
  | .vadd e vd va vb mk ft u => some (encWord 0x00000000 [(19, vd), (14, va), (9, vb), (5, mk), (1, ft), (0, u.toNat)] e, e)
  | .vsub e vd va vb mk ft u => some (encWord 0x01000000 [(19, vd), (14, va), (9, vb), (5, mk), (1, ft), (0, u.toNat)] e, e)
  | .vmul e vd va vb mk ft u => some (encWord 0x02000000 [(19, vd), (14, va), (9, vb), (5, mk), (1, ft), (0, u.toNat)] e, e)
  | .vmulh e vd va vb mk ft u => some (encWord 0x03000000 [(19, vd), (14, va), (9, vb), (5, mk), (1, ft), (0, u.toNat)] e, e)
  | .vsadd e vd va vb mk ft u => some (encWord 0x04000000 [(19, vd), (14, va), (9, vb), (5, mk), (1, ft), (0, u.toNat)] e, e)
  | .vssub e vd va vb mk ft u => some (encWord 0x05000000 [(19, vd), (14, va), (9, vb), (5, mk), (1, ft), (0, u.toNat)] e, e)
  | .vmin e vd va vb mk ft u => some (encWord 0x06000000 [(19, vd), (14, va), (9, vb), (5, mk), (1, ft), (0, u.toNat)] e, e)
  | .vmax e vd va vb mk ft u => some (encWord 0x07000000 [(19, vd), (14, va), (9, vb), (5, mk), (1, ft), (0, u.toNat)] e, e)
  | .vabs e vd va mk ft u => some (encWord 0x08000000 [(19, vd), (14, va), (5, mk), (1, ft), (0, u.toNat)] e, e)
  | .vneg e vd va mk ft u => some (encWord 0x09000000 [(19, vd), (14, va), (5, mk), (1, ft), (0, u.toNat)] e, e)
  | .vand e vd va vb mk ft u => some (encWord 0x0A000000 [(19, vd), (14, va), (9, vb), (5, mk), (1, ft), (0, u.toNat)] e, e)
  | .vor e vd va vb mk ft u => some (encWord 0x0B000000 [(19, vd), (14, va), (9, vb), (5, mk), (1, ft), (0, u.toNat)] e, e)
  | .vxor e vd va vb mk ft u => some (encWord 0x0C000000 [(19, vd), (14, va), (9, vb), (5, mk), (1, ft), (0, u.toNat)] e, e)
  | .vandn e vd va vb mk ft u => some (encWord 0x0D000000 [(19, vd), (14, va), (9, vb), (5, mk), (1, ft), (0, u.toNat)] e, e)
  | .vshl e vd va vb mk ft u => some (encWord 0x0E000000 [(19, vd), (14, va), (9, vb), (5, mk), (1, ft), (0, u.toNat)] e, e)
  | .vshr e vd va vb mk ft u => some (encWord 0x0F000000 [(19, vd), (14, va), (9, vb), (5, mk), (1, ft), (0, u.toNat)] e, e)
  | .vsra e vd va vb mk ft u => some (encWord 0x10000000 [(19, vd), (14, va), (9, vb), (5, mk), (1, ft), (0, u.toNat)] e, e)
  | .vclz e vd va mk ft u => some (encWord 0x11000000 [(19, vd), (14, va), (5, mk), (1, ft), (0, u.toNat)] e, e)
  | .vpopc e vd va mk ft u => some (encWord 0x12000000 [(19, vd), (14, va), (5, mk), (1, ft), (0, u.toNat)] e, e)
  | .vcmp e md va vb cond ft u => some (encWord 0x13000000 [(20, md), (15, va), (10, vb), (7, cond), (3, ft), (2, u.toNat)] e, e)
  | .vfadd e vd va vb mk ft => some (encWord 0x20000000 [(19, vd), (14, va), (9, vb), (5, mk), (1, ft)] e, e)
  | .vfsub e vd va vb mk ft => some (encWord 0x21000000 [(19, vd), (14, va), (9, vb), (5, mk), (1, ft)] e, e)
  | .vfmul e vd va vb mk ft => some (encWord 0x22000000 [(19, vd), (14, va), (9, vb), (5, mk), (1, ft)] e, e)
  | .vfma e vd va vb mk ft => some (encWord 0x23000000 [(19, vd), (14, va), (9, vb), (5, mk), (1, ft)] (some e), some e)
  | .vfms e vd va vb mk ft => some (encWord 0x24000000 [(19, vd), (14, va), (9, vb), (5, mk), (1, ft)] (some e), some e)
  | .vfnma e vd va vb mk ft => some (encWord 0x25000000 [(19, vd), (14, va), (9, vb), (5, mk), (1, ft)] (some e), some e)
  | .vfmin e vd va vb mk ft => some (encWord 0x26000000 [(19, vd), (14, va), (9, vb), (5, mk), (1, ft)] e, e)
  | .vfmax e vd va vb mk ft => some (encWord 0x27000000 [(19, vd), (14, va), (9, vb), (5, mk), (1, ft)] e, e)
  | .vfabs e vd va mk ft => some (encWord 0x28000000 [(19, vd), (14, va), (5, mk), (1, ft)] e, e)
  | .vfneg e vd va mk ft => some (encWord 0x29000000 [(19, vd), (14, va), (5, mk), (1, ft)] e, e)
  | .vfcmp e md va vb cond ft => some (encWord 0x2A000000 [(20, md), (15, va), (10, vb), (7, cond), (3, ft)] e, e)
  | .vfcls e md va cls ft => some (encWord 0x2B000000 [(20, md), (15, va), (5, cls), (1, ft)] e, e)
  | .vfexp e vd va mk ft => some (encWord 0x2C000000 [(19, vd), (14, va), (5, mk), (1, ft)] e, e)
  | .vfscl e vd va vb mk ft => some (encWord 0x2D000000 [(19, vd), (14, va), (9, vb), (5, mk), (1, ft)] e, e)
  | .vcvt e vd va tt ft part su du => some (encWord 0x30000000 [(19, vd), (14, va), (10, tt), (6, ft), (3, part), (2, su.toNat), (1, du.toNat)] e, e)
  | .vcvts e vd va vr tt ft => some (encWord 0x31000000 [(19, vd), (14, va), (9, vr), (5, tt), (1, ft)] e, e)
  | .vquant e vd va ct part ft => some (encWord 0x32000000 [(19, vd), (14, va), (7, ct), (5, part), (1, ft)] e, e)
  | .vquantBlk e vd va md ft => some (encWord 0x32000200 [(19, vd), (14, va), (10, md), (1, ft)] e, e)
  | .vdeq e vd va tt ct part => some (encWord 0x33000000 [(19, vd), (14, va), (10, tt), (7, ct), (4, part)] e, e)
  | .vdeqBlk e vd va tt part => some (encWord 0x33000200 [(19, vd), (14, va), (10, tt), (4, part)] e, e)
  | .vsel e vd va vb mk ft u => some (encWord 0x34000000 [(19, vd), (14, va), (9, vb), (5, mk), (1, ft), (0, u.toNat)] e, e)
  | .vmov e vd va mk ft u => some (encWord 0x35000000 [(19, vd), (14, va), (5, mk), (1, ft), (0, u.toNat)] e, e)
  | .vbcast vd gn mk ft u => some (encWord 0x36000000 [(19, vd), (13, gn), (9, mk), (5, ft), (2, u.toNat)] none, none)
  | .vbcastRow e vd va idx ft => some (encWord 0x36000001 [(19, vd), (14, va), (8, idx), (4, ft)] e, e)
  | .vbcastCol e vd va idx ft => some (encWord 0x36000002 [(19, vd), (14, va), (8, idx), (4, ft)] e, e)
  | .vins vd gn idx ft u => some (encWord 0x37000000 [(19, vd), (13, gn), (5, idx), (1, ft), (0, u.toNat)] none, none)
  | .vext e d va idx ft u => some (encWord 0x38000000 [(18, d), (13, va), (5, idx), (1, ft), (0, u.toNat)] e, e)
  | .vshape rc => some (encWord 0x39000000 [(21, rc)] none, none)
  | .vtag e vd va tt => some (encWord 0x3A000000 [(19, vd), (14, va), (10, tt)] e, e)
  | .vrsum e vd va mk ft u dir => some (encWord 0x40000000 [(19, vd), (14, va), (10, mk), (6, ft), (5, u.toNat), (4, dir.toNat)] e, e)
  | .vrmax e vd va mk ft u dir => some (encWord 0x41000000 [(19, vd), (14, va), (10, mk), (6, ft), (5, u.toNat), (4, dir.toNat)] e, e)
  | .vrmin e vd va mk ft u dir => some (encWord 0x42000000 [(19, vd), (14, va), (10, mk), (6, ft), (5, u.toNat), (4, dir.toNat)] e, e)
  | .vxrd e vd va vi mk md u => some (encWord 0x43000000 [(19, vd), (14, va), (9, vi), (5, mk), (1, md), (0, u.toNat)] e, e)
  | .vrot e vd va k ft u => some (encWord 0x44000000 [(19, vd), (14, va), (6, k), (2, ft), (1, u.toNat)] e, e)
  | .vspush e sq va mk => some (encWord 0x48000000 [(22, sq), (17, va), (13, mk)] e, e)
  | .vspop sq vd md => some (encWord 0x49000000 [(22, sq), (17, vd), (13, md)] none, none)
  | .vspopEnd sq vd md => some (encWord 0x49001000 [(22, sq), (17, vd), (13, md)] none, none)
  | .vsbal sqa sqb => some (encWord 0x4A000000 [(22, sqa), (20, sqb)] none, none)
  | .mand md ma mb => some (encWord 0x50000000 [(20, md), (16, ma), (12, mb)] none, none)
  | .mor md ma mb => some (encWord 0x51000000 [(20, md), (16, ma), (12, mb)] none, none)
  | .mxor md ma mb => some (encWord 0x52000000 [(20, md), (16, ma), (12, mb)] none, none)
  | .mnot md ma => some (encWord 0x53000000 [(20, md), (16, ma)] none, none)
  | .mpopc d ma => some (encWord 0x54000000 [(18, d), (14, ma)] none, none)
  | .mfirst d ma => some (encWord 0x55000000 [(18, d), (14, ma)] none, none)
  | .mset md cnt => some (encWord 0x56000000 [(20, md), (4, cnt)] none, none)
  | .msetReg md gn => some (encWord 0x56080000 [(20, md), (13, gn)] none, none)
  | .fexp2 e vd va mk => some (encWord 0x00000000 [(19, vd), (14, va), (10, mk)] e, e)
  | .flog2 e vd va mk => some (encWord 0x01000000 [(19, vd), (14, va), (10, mk)] e, e)
  | .frcp e vd va mk => some (encWord 0x02000000 [(19, vd), (14, va), (10, mk)] e, e)
  | .frsq e vd va mk => some (encWord 0x03000000 [(19, vd), (14, va), (10, mk)] e, e)
  | .mclaim kind first cnt => some (encWord 0x00000000 [(22, kind), (16, first), (10, cnt)] none, none)
  | .mrel kind first cnt => some (encWord 0x01000000 [(22, kind), (16, first), (10, cnt)] none, none)
  | .mfill e os grp an off => some (encWord 0x02000000 [(18, os), (15, grp), (11, an), (0, off)] e, e)
  | .mlatch lt os blk => some (encWord 0x03000000 [(22, lt), (16, os), (15, blk.toNat)] none, none)
  | .mpush e lt row va part blk => some (encWord 0x04000000 [(22, lt), (16, row), (11, va), (10, part.toNat), (9, blk.toNat)] e, e)
  | .mshift e os row va part blk => some (encWord 0x05000000 [(18, os), (12, row), (7, va), (6, part.toNat), (5, blk.toNat)] e, e)
  | .macc e acc row os lt za => some (encWord 0x06000000 [(18, acc), (12, row), (6, os), (4, lt), (3, za.toNat)] e, e)
  | .mdrain acc row vd tt part clr => some (encWord 0x07000000 [(18, acc), (12, row), (7, vd), (3, tt), (1, part), (0, clr.toNat)] none, none)
  | .mzero acc => some (encWord 0x08000000 [(18, acc)] none, none)
  | .mfmt fa fb ca cb ct ua ub => some (encWord 0x09000000 [(20, fa), (16, fb), (15, ca.toNat), (14, cb.toNat), (12, ct), (11, ua.toNat), (10, ub.toNat)] none, none)
  | .qldm e q va => some (encWord 0x00000000 [(22, q), (17, va)] e, e)
  | .qldk e q va => some (encWord 0x01000000 [(22, q), (17, va)] e, e)
  | .qadd e vd va vb mk q => some (encWord 0x02000000 [(19, vd), (14, va), (9, vb), (5, mk), (3, q)] e, e)
  | .qsub e vd va vb mk q => some (encWord 0x03000000 [(19, vd), (14, va), (9, vb), (5, mk), (3, q)] e, e)
  | .qmul e vd va vb mk q => some (encWord 0x04000000 [(19, vd), (14, va), (9, vb), (5, mk), (3, q)] e, e)
  | .qmac e vd va vb mk q => some (encWord 0x05000000 [(19, vd), (14, va), (9, vb), (5, mk), (3, q)] e, e)
  | .qred e vd va mk q => some (encWord 0x06000000 [(19, vd), (14, va), (5, mk), (3, q)] e, e)
  | .qbfly e vx vy vw mk q => some (encWord 0x07000000 [(19, vx), (14, vy), (9, vw), (5, mk), (3, q)] e, e)
  | .qibfly e vx vy vw mk q => some (encWord 0x08000000 [(19, vx), (14, vy), (9, vw), (5, mk), (3, q)] e, e)
  | .qcvtQ64I64 e vd va mk q => some (encWord 0x09000000 [(19, vd), (14, va), (10, mk), (8, q)] e, e)
  | .qcvtI64Q64 e vd va mk q => some (encWord 0x09000080 [(19, vd), (14, va), (10, mk), (8, q)] e, e)
  | .bperm e vd va mk stg w => some (encWord 0x0A000000 [(19, vd), (14, va), (10, mk), (7, stg), (6, w.toNat)] e, e)
  | .bpermi e vd va stg w => some (encWord 0x0B000000 [(19, vd), (14, va), (11, stg), (10, w.toNat)] e, e)
  | .vxperm e vd va vi mk w => some (encWord 0x0C000000 [(19, vd), (14, va), (9, vi), (5, mk), (4, w.toNat)] e, e)
  | .seqlv e lvl fld gn => some (encWord 0x00000000 [(21, lvl), (18, fld), (12, gn)] e, e)
  | .seqgo d gs c => some (encWord 0x01000000 [(18, d), (12, gs), (6, c)] none, none)
  | .tmov d gs c sz => some (encWord 0x02000000 [(18, d), (12, gs), (6, c), (2, sz)] none, none)
  | .mcast e d gs c sz => some (encWord 0x03000000 [(18, d), (12, gs), (6, c), (2, sz)] (some e), some e)
  | .send ch vs nb => some (encWord 0x04000000 [(20, ch), (14, vs), (12, nb)] none, none)
  | .sendMem ch a nb => some (encWord 0x04080000 [(20, ch), (13, a), (6, nb)] none, none)
  | .recv e ch vd nb tag gn => some (encWord 0x05000000 [(20, ch), (14, vd), (12, nb), (8, tag), (2, gn)] e, e)
  | .recvMem e ch a nb gn => some (encWord 0x05080000 [(20, ch), (13, a), (6, nb), (0, gn)] e, e)
  | .nmcmd a c => some (encWord 0x06000000 [(18, a), (12, c)] none, none)
  | .nmfence => some (encWord 0x07000000 [] none, none)
  | .fence scope => some (encWord 0x08000000 [(21, scope)] none, none)
  | .atom op w a b rt => some (encWord 0x09000000 [(20, op), (18, w), (12, a), (6, b), (0, rt)] none, none)
  | .atomr op w a b rt => some (encWord 0x0A000000 [(20, op), (18, w), (12, a), (6, b), (0, rt)] none, none)
  | .shalloc gs rt mir => some (encWord 0x0B000000 [(18, gs), (12, rt), (11, mir.toNat)] none, none)
  | .shfree a rt => some (encWord 0x0C000000 [(18, a), (12, rt)] none, none)
  | .stamp e scope a gv => some (encWord 0x0D000000 [(21, scope), (15, a), (9, gv)] e, e)
  | .monarm mon a => some (encWord 0x0E000000 [(22, mon), (16, a)] none, none)
  | .bndset bd lo hi mode fk => some (encWord 0x0F000000 [(20, bd), (14, lo), (8, hi), (6, mode), (5, fk.toNat)] none, none)
  | .ctset ct a => some (encWord 0x10000000 [(22, ct), (16, a)] none, none)
  | .coll a c => some (encWord 0x11000000 [(18, a), (12, c)] none, none)
  | .pref a sz => some (encWord 0x12000000 [(18, a), (14, sz)] none, none)
  | .contextReady _ _ => none
  | .heldRecordPost _ _ => none
  | .deferredCauseTaken _ _ => none
  | .transferDataArrival _ => none
  | .barrierArrival _ => none
  | .stampWrite _ => none
  | .monarmReadReturn _ => none
  | .postedStorePerform _ => none
  | .beatArrival _ => none
  | .beatReoffer _ => none
  | .creditReturn _ => none
  | .nmcmdAccept _ => none
  | .nmcmdComplete _ => none
  | .nmfenceAnswer _ _ => none
  | .copyComplete _ => none
  | .mcastDelivery _ _ => none
  | .slowPathHandoff _ => none
  | .pageRequestReply _ => none
  | .atomicPerform _ => none
  | .shallocReply _ => none
  | .shfreeReply _ => none
  | .shelfSwitchFailure _ => none
  | .collRegistration _ => none
  | .chunkAcknowledged _ => none
  | .switchResult _ => none
  | .fallback _ => none
  | .intakeStep _ => none
  | .partStart _ => none
  | .taskComplete _ => none
  | .endedCauseRecord _ => none
  | .resume _ _ => none
  | .step _ _ => none
  | .suspend _ _ => none
  | .abort _ _ => none
  | .saveComplete _ => none
  | .saveAbandon _ => none
  | .loadComplete _ => none
  | .idleWake _ _ => none
  | .tqctlWrite _ _ => none
  | .tqconsWrite _ _ => none
  | .energywWrite _ _ _ => none
  | .gearwWrite _ _ _ => none
  | .fmtctlWrite _ _ _ => none
  | .registerWrite _ _ _ _ _ => none
  | .tableWalk _ _ => none
  | .counterAdd _ _ => none
  | .tlbinvComplete _ => none
  | .slotGrant _ _ => none
  | .slotTableSwitch _ => none
  | .partitionCreate _ => none
  | .fabricReceive _ _ _ _ _ _ => none
  | .peerAck _ => none
  | .linkUp _ _ _ _ _ => none
  | .flitReplay _ _ => none
  | .linkFailure _ _ => none
  | .linkRetrain _ _ _ _ => none
  | .destinationUnreachable _ => none
  | .reachableMark _ => none
  | .poisonConsumption _ _ _ _ => none
  | .patrolScrub _ => none
  | .gearChange _ => none
  | .gearChangeDone _ => none
  | .capControllerStep => none
  | .thermalHold _ => none
  | .thermalRelease _ => none
  | .emergencySave => none
  | .powerRemoval => none
  | .droopTrip _ => none
  | .droopRecovery _ => none
  | .hbmFrequencyChange _ _ => none
  | .retrainingPauseEnd _ => none
  | .ballastEstimate _ => none
  | .staticTick _ => none
  | .wearSwing _ _ => none
  | .wearFlashWrite => none
  | .orderlyShutdown => none
  | .restartRestore => none
  | .powerOn => none
  | .bootStageComplete _ => none
  | .fdoorSubmit _ _ _ _ => none
  | .capsetWrite _ => none
  | .checkpointStart => none
  | .checkpointPeriod _ => none
  | .periodicCheckpoint => none
  | .checkpointComplete => none
  | .attestationRequest _ => none
  | .attestationReportReady => none
  | .klotyQueueRecord _ => none
  | .hostWindowAccess _ _ _ => none
  | .expanderReturn _ => none
  | .hbm4Refresh _ => none
  | .chainPartialArrival _ => none
  | .partitionChange _ => none

/-- The candidate instruction of a branch-slot word, by opcode (R117). -/
def parseB (w : Nat) (e : Option Nat) : Except DecodeErr Instr :=
  match bitsAt w 24 7 with
  | 0x00 => .ok (.nop)
  | 0x01 => .ok (.br (bitsAt w 0 24))
  | 0x02 => .ok (.brp (bitsAt w 20 4) (bitAt w 19) (bitsAt w 0 18))
  | 0x03 => .ok (.brr (bitsAt w 18 6))
  | 0x04 => .ok (.call (bitsAt w 18 6) (bitsAt w 0 18))
  | 0x05 => .ok (.ret (bitsAt w 18 6))
  | 0x06 => if bitsAt w 0 22 = 0 then .ok (.loopEnd (bitsAt w 22 2)) else .ok (.loop (bitsAt w 22 2) (bitsAt w 20 2) (bitAt w 19) (bitsAt w 0 18))
  | 0x07 => .ok (.endk)
  | 0x08 => .ok (.bwait e (bitsAt w 13 11) (bitsAt w 7 6))
  | 0x09 => .ok (.barv e (bitsAt w 13 11) (bitsAt w 7 6) (bitsAt w 4 3) (bitsAt w 1 3))
  | 0x0A => .ok (.binit e (bitsAt w 13 11) (bitsAt w 7 6))
  | 0x0B => .ok (.monwait e (bitsAt w 22 2) (bitsAt w 16 6))
  | 0x0C => if bitAt w 21 then .ok (.gearReg (bitsAt w 15 6)) else .ok (.gear (bitsAt w 22 2))
  | 0x0D => .ok (.trap (bitsAt w 16 8))
  | 0x0E => .ok (.brk (bitsAt w 16 8))
  | 0x0F => .ok (.dlchk (bitsAt w 20 4) (bitsAt w 14 6) (bitAt w 13))
  | 0x10 => .ok (.launch (bitsAt w 18 6) (bitsAt w 16 2))
  | 0x11 => .ok (.lqstat (bitsAt w 18 6) (bitsAt w 16 2))
  | 0x60 => .ok (.eret)
  | 0x61 => .ok (.srdp (bitsAt w 18 6) (bitsAt w 10 8) (bitsAt w 6 4))
  | 0x62 => .ok (.swrp (bitsAt w 18 6) (bitsAt w 10 8) (bitsAt w 6 4))
  | 0x63 => if bitsAt w 10 2 = 0 then .ok (.tlbinvPage (bitsAt w 18 6) (bitsAt w 12 6)) else if bitsAt w 10 2 = 1 then .ok (.tlbinvAll (bitsAt w 12 6)) else .ok (.tlbinvWb (bitsAt w 18 6) (bitsAt w 12 6))
  | 0x64 => if bitAt w 4 then .ok (.ctxsvCore (bitsAt w 18 6) (bitsAt w 12 6) (bitsAt w 6 6)) else .ok (.ctxsvCtx (bitsAt w 18 6) (bitsAt w 12 6) (bitsAt w 6 6))
  | 0x65 => if bitAt w 4 then .ok (.ctxldCore (bitsAt w 18 6) (bitsAt w 12 6) (bitsAt w 6 6)) else .ok (.ctxldCtx (bitsAt w 18 6) (bitsAt w 12 6) (bitsAt w 6 6))
  | 0x66 => if bitsAt w 16 2 = 0 then .ok (.trcctlOff) else if bitsAt w 16 2 = 1 then .ok (.trcctlRec (bitsAt w 18 6)) else .ok (.trcctlBind (bitsAt w 18 6))
  | 0x67 => .ok (.idle)
  | _ => .error .unassigned

/-- The candidate instruction of a scalar-slot word, by opcode (R117). -/
def parseS (w : Nat) (e : Option Nat) : Except DecodeErr Instr :=
  match bitsAt w 24 7 with
  | 0x00 => .ok (.add e (bitsAt w 18 6) (bitsAt w 12 6) (bitsAt w 6 6) (bitsAt w 2 4) (bitAt w 1))
  | 0x01 => .ok (.sub e (bitsAt w 18 6) (bitsAt w 12 6) (bitsAt w 6 6) (bitsAt w 2 4) (bitAt w 1))
  | 0x02 => .ok (.mul e (bitsAt w 18 6) (bitsAt w 12 6) (bitsAt w 6 6) (bitsAt w 2 4) (bitAt w 1))
  | 0x08 => .ok (.and e (bitsAt w 18 6) (bitsAt w 12 6) (bitsAt w 6 6) (bitsAt w 2 4) (bitAt w 1))
  | 0x09 => .ok (.or e (bitsAt w 18 6) (bitsAt w 12 6) (bitsAt w 6 6) (bitsAt w 2 4) (bitAt w 1))
  | 0x0A => .ok (.xor e (bitsAt w 18 6) (bitsAt w 12 6) (bitsAt w 6 6) (bitsAt w 2 4) (bitAt w 1))
  | 0x0B => .ok (.andn e (bitsAt w 18 6) (bitsAt w 12 6) (bitsAt w 6 6) (bitsAt w 2 4) (bitAt w 1))
  | 0x0C => .ok (.shl e (bitsAt w 18 6) (bitsAt w 12 6) (bitsAt w 6 6) (bitsAt w 2 4) (bitAt w 1))
  | 0x0D => .ok (.shr e (bitsAt w 18 6) (bitsAt w 12 6) (bitsAt w 6 6) (bitsAt w 2 4) (bitAt w 1))
  | 0x0E => .ok (.sra e (bitsAt w 18 6) (bitsAt w 12 6) (bitsAt w 6 6) (bitsAt w 2 4) (bitAt w 1))
  | 0x0F => .ok (.rot e (bitsAt w 18 6) (bitsAt w 12 6) (bitsAt w 6 6) (bitsAt w 2 4) (bitAt w 1))
  | 0x03 => .ok (.mulh e (bitsAt w 18 6) (bitsAt w 12 6) (bitsAt w 6 6) (bitsAt w 2 4) (bitAt w 1) (bitAt w 0))
  | 0x04 => .ok (.div e (bitsAt w 18 6) (bitsAt w 12 6) (bitsAt w 6 6) (bitsAt w 2 4) (bitAt w 1) (bitAt w 0))
  | 0x05 => .ok (.rem e (bitsAt w 18 6) (bitsAt w 12 6) (bitsAt w 6 6) (bitsAt w 2 4) (bitAt w 1) (bitAt w 0))
  | 0x12 => .ok (.min e (bitsAt w 18 6) (bitsAt w 12 6) (bitsAt w 6 6) (bitsAt w 2 4) (bitAt w 1) (bitAt w 0))
  | 0x13 => .ok (.max e (bitsAt w 18 6) (bitsAt w 12 6) (bitsAt w 6 6) (bitsAt w 2 4) (bitAt w 1) (bitAt w 0))
  | 0x10 => .ok (.clz (bitsAt w 18 6) (bitsAt w 12 6) (bitsAt w 2 4) (bitAt w 1))
  | 0x11 => .ok (.popc (bitsAt w 18 6) (bitsAt w 12 6) (bitsAt w 2 4) (bitAt w 1))
  | 0x14 => .ok (.cmp e (bitsAt w 20 4) (bitsAt w 18 2) (bitsAt w 12 6) (bitsAt w 6 6) (bitsAt w 2 4) (bitAt w 1) (bitAt w 0))
  | 0x15 => .ok (.sel e (bitsAt w 18 6) (bitsAt w 12 6) (bitsAt w 6 6) (bitsAt w 2 4) (bitAt w 1))
  | 0x18 =>
    match e with
    | none => .ok (.ldi (bitsAt w 18 6) (bitsAt w 0 18))
    | some x => if bitAt w 17 then .ok (.ldiHi x (bitsAt w 18 6)) else .ok (.ldiExt x (bitsAt w 18 6))
  | 0x1C => .ok (.pand (bitsAt w 20 4) (bitsAt w 16 4) (bitsAt w 12 4) (bitAt w 11) (bitAt w 10))
  | 0x1D => .ok (.por (bitsAt w 20 4) (bitsAt w 16 4) (bitsAt w 12 4) (bitAt w 11) (bitAt w 10))
  | 0x1E => .ok (.pxor (bitsAt w 20 4) (bitsAt w 16 4) (bitsAt w 12 4) (bitAt w 11) (bitAt w 10))
  | 0x1F => .ok (.pnot (bitsAt w 20 4) (bitsAt w 16 4) (bitAt w 11))
  | 0x20 => .ok (.srd (bitsAt w 18 6) (bitsAt w 10 8) (bitsAt w 6 4) (bitsAt w 2 4) (bitAt w 1))
  | 0x21 => .ok (.swr (bitsAt w 18 6) (bitsAt w 10 8) (bitsAt w 6 4) (bitsAt w 2 4) (bitAt w 1))
  | _ => .error .unassigned

/-- The candidate instruction of a address-slot word, by opcode (R117). -/
def parseA (w : Nat) (e : Option Nat) : Except DecodeErr Instr :=
  match bitsAt w 24 7 with
  | 0x00 => .ok (.amov (bitsAt w 20 4) (bitsAt w 16 4) (bitAt w 15))
  | 0x01 => .ok (.aadd e (bitsAt w 20 4) (bitsAt w 16 4) (bitsAt w 10 6))
  | 0x02 => .ok (.aldi e (bitsAt w 20 4) (bitsAt w 14 6) (bitsAt w 0 14))
  | 0x03 => .ok (.astr e (bitsAt w 20 4) (bitsAt w 18 2) (bitsAt w 12 6))
  | 0x04 => .ok (.aget (bitsAt w 18 6) (bitsAt w 14 4) (bitAt w 13) (bitsAt w 11 2))
  | 0x05 => .ok (.aclr (bitsAt w 8 16) (bitAt w 7))
  | _ => .error .unassigned

/-- The candidate instruction of a load and store-slot word, by opcode (R117). -/
def parseL (w : Nat) (e : Option Nat) : Except DecodeErr Instr :=
  match bitsAt w 24 7 with
  | 0x00 => .ok (.ld e (bitsAt w 18 6) (bitsAt w 14 4) (bitsAt w 12 2) (bitAt w 11) (bitsAt w 0 11))
  | 0x01 => .ok (.st e (bitsAt w 18 6) (bitsAt w 14 4) (bitsAt w 12 2) (bitsAt w 0 11))
  | 0x02 => .ok (.vld e (bitsAt w 19 5) (bitsAt w 15 4) (bitsAt w 11 4) (bitsAt w 0 11))
  | 0x03 => .ok (.vst e (bitsAt w 19 5) (bitsAt w 15 4) (bitsAt w 11 4) (bitsAt w 7 4) (bitsAt w 0 7))
  | 0x04 => .ok (.vldw e (bitsAt w 20 4) (bitsAt w 16 4) (bitsAt w 12 4) (bitAt w 11) (bitsAt w 0 11))
  | 0x05 => .ok (.vstw e (bitsAt w 20 4) (bitsAt w 16 4) (bitsAt w 12 4) (bitAt w 11) (bitsAt w 0 11))
  | 0x06 => .ok (.vgth e (bitsAt w 19 5) (bitsAt w 14 5) (bitsAt w 10 4) (bitsAt w 6 4) (bitsAt w 2 4))
  | 0x07 => .ok (.vsct e (bitsAt w 19 5) (bitsAt w 14 5) (bitsAt w 10 4) (bitsAt w 6 4) (bitsAt w 2 4))
  | 0x08 => .ok (.vjoin)
  | 0x09 => .ok (.pld e (bitsAt w 20 4) (bitsAt w 16 4) (bitsAt w 0 16))
  | 0x0A => .ok (.pst e (bitsAt w 20 4) (bitsAt w 16 4) (bitsAt w 0 16))
  | _ => .error .unassigned

/-- The candidate instruction of a vector-slot word, by opcode (R117). -/
def parseV (w : Nat) (e : Option Nat) : Except DecodeErr Instr :=
  match bitsAt w 24 7 with
  | 0x00 => .ok (.vadd e (bitsAt w 19 5) (bitsAt w 14 5) (bitsAt w 9 5) (bitsAt w 5 4) (bitsAt w 1 4) (bitAt w 0))
  | 0x01 => .ok (.vsub e (bitsAt w 19 5) (bitsAt w 14 5) (bitsAt w 9 5) (bitsAt w 5 4) (bitsAt w 1 4) (bitAt w 0))
  | 0x02 => .ok (.vmul e (bitsAt w 19 5) (bitsAt w 14 5) (bitsAt w 9 5) (bitsAt w 5 4) (bitsAt w 1 4) (bitAt w 0))
  | 0x03 => .ok (.vmulh e (bitsAt w 19 5) (bitsAt w 14 5) (bitsAt w 9 5) (bitsAt w 5 4) (bitsAt w 1 4) (bitAt w 0))
  | 0x04 => .ok (.vsadd e (bitsAt w 19 5) (bitsAt w 14 5) (bitsAt w 9 5) (bitsAt w 5 4) (bitsAt w 1 4) (bitAt w 0))
  | 0x05 => .ok (.vssub e (bitsAt w 19 5) (bitsAt w 14 5) (bitsAt w 9 5) (bitsAt w 5 4) (bitsAt w 1 4) (bitAt w 0))
  | 0x06 => .ok (.vmin e (bitsAt w 19 5) (bitsAt w 14 5) (bitsAt w 9 5) (bitsAt w 5 4) (bitsAt w 1 4) (bitAt w 0))
  | 0x07 => .ok (.vmax e (bitsAt w 19 5) (bitsAt w 14 5) (bitsAt w 9 5) (bitsAt w 5 4) (bitsAt w 1 4) (bitAt w 0))
  | 0x08 => .ok (.vabs e (bitsAt w 19 5) (bitsAt w 14 5) (bitsAt w 5 4) (bitsAt w 1 4) (bitAt w 0))
  | 0x09 => .ok (.vneg e (bitsAt w 19 5) (bitsAt w 14 5) (bitsAt w 5 4) (bitsAt w 1 4) (bitAt w 0))
  | 0x0A => .ok (.vand e (bitsAt w 19 5) (bitsAt w 14 5) (bitsAt w 9 5) (bitsAt w 5 4) (bitsAt w 1 4) (bitAt w 0))
  | 0x0B => .ok (.vor e (bitsAt w 19 5) (bitsAt w 14 5) (bitsAt w 9 5) (bitsAt w 5 4) (bitsAt w 1 4) (bitAt w 0))
  | 0x0C => .ok (.vxor e (bitsAt w 19 5) (bitsAt w 14 5) (bitsAt w 9 5) (bitsAt w 5 4) (bitsAt w 1 4) (bitAt w 0))
  | 0x0D => .ok (.vandn e (bitsAt w 19 5) (bitsAt w 14 5) (bitsAt w 9 5) (bitsAt w 5 4) (bitsAt w 1 4) (bitAt w 0))
  | 0x0E => .ok (.vshl e (bitsAt w 19 5) (bitsAt w 14 5) (bitsAt w 9 5) (bitsAt w 5 4) (bitsAt w 1 4) (bitAt w 0))
  | 0x0F => .ok (.vshr e (bitsAt w 19 5) (bitsAt w 14 5) (bitsAt w 9 5) (bitsAt w 5 4) (bitsAt w 1 4) (bitAt w 0))
  | 0x10 => .ok (.vsra e (bitsAt w 19 5) (bitsAt w 14 5) (bitsAt w 9 5) (bitsAt w 5 4) (bitsAt w 1 4) (bitAt w 0))
  | 0x11 => .ok (.vclz e (bitsAt w 19 5) (bitsAt w 14 5) (bitsAt w 5 4) (bitsAt w 1 4) (bitAt w 0))
  | 0x12 => .ok (.vpopc e (bitsAt w 19 5) (bitsAt w 14 5) (bitsAt w 5 4) (bitsAt w 1 4) (bitAt w 0))
  | 0x13 => .ok (.vcmp e (bitsAt w 20 4) (bitsAt w 15 5) (bitsAt w 10 5) (bitsAt w 7 3) (bitsAt w 3 4) (bitAt w 2))
  | 0x20 => .ok (.vfadd e (bitsAt w 19 5) (bitsAt w 14 5) (bitsAt w 9 5) (bitsAt w 5 4) (bitsAt w 1 4))
  | 0x21 => .ok (.vfsub e (bitsAt w 19 5) (bitsAt w 14 5) (bitsAt w 9 5) (bitsAt w 5 4) (bitsAt w 1 4))
  | 0x22 => .ok (.vfmul e (bitsAt w 19 5) (bitsAt w 14 5) (bitsAt w 9 5) (bitsAt w 5 4) (bitsAt w 1 4))
  | 0x23 =>
    match e with
    | none => .error .extMissing
    | some x => .ok (.vfma x (bitsAt w 19 5) (bitsAt w 14 5) (bitsAt w 9 5) (bitsAt w 5 4) (bitsAt w 1 4))
  | 0x24 =>
    match e with
    | none => .error .extMissing
    | some x => .ok (.vfms x (bitsAt w 19 5) (bitsAt w 14 5) (bitsAt w 9 5) (bitsAt w 5 4) (bitsAt w 1 4))
  | 0x25 =>
    match e with
    | none => .error .extMissing
    | some x => .ok (.vfnma x (bitsAt w 19 5) (bitsAt w 14 5) (bitsAt w 9 5) (bitsAt w 5 4) (bitsAt w 1 4))
  | 0x26 => .ok (.vfmin e (bitsAt w 19 5) (bitsAt w 14 5) (bitsAt w 9 5) (bitsAt w 5 4) (bitsAt w 1 4))
  | 0x27 => .ok (.vfmax e (bitsAt w 19 5) (bitsAt w 14 5) (bitsAt w 9 5) (bitsAt w 5 4) (bitsAt w 1 4))
  | 0x28 => .ok (.vfabs e (bitsAt w 19 5) (bitsAt w 14 5) (bitsAt w 5 4) (bitsAt w 1 4))
  | 0x29 => .ok (.vfneg e (bitsAt w 19 5) (bitsAt w 14 5) (bitsAt w 5 4) (bitsAt w 1 4))
  | 0x2A => .ok (.vfcmp e (bitsAt w 20 4) (bitsAt w 15 5) (bitsAt w 10 5) (bitsAt w 7 3) (bitsAt w 3 4))
  | 0x2B => .ok (.vfcls e (bitsAt w 20 4) (bitsAt w 15 5) (bitsAt w 5 10) (bitsAt w 1 4))
  | 0x2C => .ok (.vfexp e (bitsAt w 19 5) (bitsAt w 14 5) (bitsAt w 5 4) (bitsAt w 1 4))
  | 0x2D => .ok (.vfscl e (bitsAt w 19 5) (bitsAt w 14 5) (bitsAt w 9 5) (bitsAt w 5 4) (bitsAt w 1 4))
  | 0x30 => .ok (.vcvt e (bitsAt w 19 5) (bitsAt w 14 5) (bitsAt w 10 4) (bitsAt w 6 4) (bitsAt w 3 3) (bitAt w 2) (bitAt w 1))
  | 0x31 => .ok (.vcvts e (bitsAt w 19 5) (bitsAt w 14 5) (bitsAt w 9 5) (bitsAt w 5 4) (bitsAt w 1 4))
  | 0x32 => if bitAt w 9 then .ok (.vquantBlk e (bitsAt w 19 5) (bitsAt w 14 5) (bitsAt w 10 4) (bitsAt w 1 4)) else .ok (.vquant e (bitsAt w 19 5) (bitsAt w 14 5) (bitsAt w 7 2) (bitsAt w 5 2) (bitsAt w 1 4))
  | 0x33 => if bitAt w 9 then .ok (.vdeqBlk e (bitsAt w 19 5) (bitsAt w 14 5) (bitsAt w 10 4) (bitsAt w 4 3)) else .ok (.vdeq e (bitsAt w 19 5) (bitsAt w 14 5) (bitsAt w 10 4) (bitsAt w 7 2) (bitsAt w 4 3))
  | 0x34 => .ok (.vsel e (bitsAt w 19 5) (bitsAt w 14 5) (bitsAt w 9 5) (bitsAt w 5 4) (bitsAt w 1 4) (bitAt w 0))
  | 0x35 => .ok (.vmov e (bitsAt w 19 5) (bitsAt w 14 5) (bitsAt w 5 4) (bitsAt w 1 4) (bitAt w 0))
  | 0x36 => if bitsAt w 0 2 = 0 then .ok (.vbcast (bitsAt w 19 5) (bitsAt w 13 6) (bitsAt w 9 4) (bitsAt w 5 4) (bitAt w 2)) else if bitsAt w 0 2 = 1 then .ok (.vbcastRow e (bitsAt w 19 5) (bitsAt w 14 5) (bitsAt w 8 6) (bitsAt w 4 4)) else .ok (.vbcastCol e (bitsAt w 19 5) (bitsAt w 14 5) (bitsAt w 8 6) (bitsAt w 4 4))
  | 0x37 => .ok (.vins (bitsAt w 19 5) (bitsAt w 13 6) (bitsAt w 5 8) (bitsAt w 1 4) (bitAt w 0))
  | 0x38 => .ok (.vext e (bitsAt w 18 6) (bitsAt w 13 5) (bitsAt w 5 8) (bitsAt w 1 4) (bitAt w 0))
  | 0x39 => .ok (.vshape (bitsAt w 21 3))
  | 0x3A => .ok (.vtag e (bitsAt w 19 5) (bitsAt w 14 5) (bitsAt w 10 4))
  | 0x40 => .ok (.vrsum e (bitsAt w 19 5) (bitsAt w 14 5) (bitsAt w 10 4) (bitsAt w 6 4) (bitAt w 5) (bitAt w 4))
  | 0x41 => .ok (.vrmax e (bitsAt w 19 5) (bitsAt w 14 5) (bitsAt w 10 4) (bitsAt w 6 4) (bitAt w 5) (bitAt w 4))
  | 0x42 => .ok (.vrmin e (bitsAt w 19 5) (bitsAt w 14 5) (bitsAt w 10 4) (bitsAt w 6 4) (bitAt w 5) (bitAt w 4))
  | 0x43 => .ok (.vxrd e (bitsAt w 19 5) (bitsAt w 14 5) (bitsAt w 9 5) (bitsAt w 5 4) (bitsAt w 1 4) (bitAt w 0))
  | 0x44 => .ok (.vrot e (bitsAt w 19 5) (bitsAt w 14 5) (bitsAt w 6 8) (bitsAt w 2 4) (bitAt w 1))
  | 0x48 => .ok (.vspush e (bitsAt w 22 2) (bitsAt w 17 5) (bitsAt w 13 4))
  | 0x49 => if bitAt w 12 then .ok (.vspopEnd (bitsAt w 22 2) (bitsAt w 17 5) (bitsAt w 13 4)) else .ok (.vspop (bitsAt w 22 2) (bitsAt w 17 5) (bitsAt w 13 4))
  | 0x4A => .ok (.vsbal (bitsAt w 22 2) (bitsAt w 20 2))
  | 0x50 => .ok (.mand (bitsAt w 20 4) (bitsAt w 16 4) (bitsAt w 12 4))
  | 0x51 => .ok (.mor (bitsAt w 20 4) (bitsAt w 16 4) (bitsAt w 12 4))
  | 0x52 => .ok (.mxor (bitsAt w 20 4) (bitsAt w 16 4) (bitsAt w 12 4))
  | 0x53 => .ok (.mnot (bitsAt w 20 4) (bitsAt w 16 4))
  | 0x54 => .ok (.mpopc (bitsAt w 18 6) (bitsAt w 14 4))
  | 0x55 => .ok (.mfirst (bitsAt w 18 6) (bitsAt w 14 4))
  | 0x56 => if bitAt w 19 then .ok (.msetReg (bitsAt w 20 4) (bitsAt w 13 6)) else .ok (.mset (bitsAt w 20 4) (bitsAt w 4 9))
  | _ => .error .unassigned

/-- The candidate instruction of a special-function-slot word, by opcode (R117). -/
def parseF (w : Nat) (e : Option Nat) : Except DecodeErr Instr :=
  match bitsAt w 24 7 with
  | 0x00 => .ok (.fexp2 e (bitsAt w 19 5) (bitsAt w 14 5) (bitsAt w 10 4))
  | 0x01 => .ok (.flog2 e (bitsAt w 19 5) (bitsAt w 14 5) (bitsAt w 10 4))
  | 0x02 => .ok (.frcp e (bitsAt w 19 5) (bitsAt w 14 5) (bitsAt w 10 4))
  | 0x03 => .ok (.frsq e (bitsAt w 19 5) (bitsAt w 14 5) (bitsAt w 10 4))
  | _ => .error .unassigned

/-- The candidate instruction of a matrix-slot word, by opcode (R117). -/
def parseM (w : Nat) (e : Option Nat) : Except DecodeErr Instr :=
  match bitsAt w 24 7 with
  | 0x00 => .ok (.mclaim (bitsAt w 22 2) (bitsAt w 16 6) (bitsAt w 10 6))
  | 0x01 => .ok (.mrel (bitsAt w 22 2) (bitsAt w 16 6) (bitsAt w 10 6))
  | 0x02 => .ok (.mfill e (bitsAt w 18 6) (bitsAt w 15 3) (bitsAt w 11 4) (bitsAt w 0 11))
  | 0x03 => .ok (.mlatch (bitsAt w 22 2) (bitsAt w 16 6) (bitAt w 15))
  | 0x04 => .ok (.mpush e (bitsAt w 22 2) (bitsAt w 16 6) (bitsAt w 11 5) (bitAt w 10) (bitAt w 9))
  | 0x05 => .ok (.mshift e (bitsAt w 18 6) (bitsAt w 12 6) (bitsAt w 7 5) (bitAt w 6) (bitAt w 5))
  | 0x06 => .ok (.macc e (bitsAt w 18 6) (bitsAt w 12 6) (bitsAt w 6 6) (bitsAt w 4 2) (bitAt w 3))
  | 0x07 => .ok (.mdrain (bitsAt w 18 6) (bitsAt w 12 6) (bitsAt w 7 5) (bitsAt w 3 4) (bitsAt w 1 2) (bitAt w 0))
  | 0x08 => .ok (.mzero (bitsAt w 18 6))
  | 0x09 => .ok (.mfmt (bitsAt w 20 4) (bitsAt w 16 4) (bitAt w 15) (bitAt w 14) (bitsAt w 12 2) (bitAt w 11) (bitAt w 10))
  | _ => .error .unassigned

/-- The candidate instruction of a modular-slot word, by opcode (R117). -/
def parseN (w : Nat) (e : Option Nat) : Except DecodeErr Instr :=
  match bitsAt w 24 7 with
  | 0x00 => .ok (.qldm e (bitsAt w 22 2) (bitsAt w 17 5))
  | 0x01 => .ok (.qldk e (bitsAt w 22 2) (bitsAt w 17 5))
  | 0x02 => .ok (.qadd e (bitsAt w 19 5) (bitsAt w 14 5) (bitsAt w 9 5) (bitsAt w 5 4) (bitsAt w 3 2))
  | 0x03 => .ok (.qsub e (bitsAt w 19 5) (bitsAt w 14 5) (bitsAt w 9 5) (bitsAt w 5 4) (bitsAt w 3 2))
  | 0x04 => .ok (.qmul e (bitsAt w 19 5) (bitsAt w 14 5) (bitsAt w 9 5) (bitsAt w 5 4) (bitsAt w 3 2))
  | 0x05 => .ok (.qmac e (bitsAt w 19 5) (bitsAt w 14 5) (bitsAt w 9 5) (bitsAt w 5 4) (bitsAt w 3 2))
  | 0x06 => .ok (.qred e (bitsAt w 19 5) (bitsAt w 14 5) (bitsAt w 5 4) (bitsAt w 3 2))
  | 0x07 => .ok (.qbfly e (bitsAt w 19 5) (bitsAt w 14 5) (bitsAt w 9 5) (bitsAt w 5 4) (bitsAt w 3 2))
  | 0x08 => .ok (.qibfly e (bitsAt w 19 5) (bitsAt w 14 5) (bitsAt w 9 5) (bitsAt w 5 4) (bitsAt w 3 2))
  | 0x09 => if bitAt w 7 then .ok (.qcvtI64Q64 e (bitsAt w 19 5) (bitsAt w 14 5) (bitsAt w 10 4) (bitsAt w 8 2)) else .ok (.qcvtQ64I64 e (bitsAt w 19 5) (bitsAt w 14 5) (bitsAt w 10 4) (bitsAt w 8 2))
  | 0x0A => .ok (.bperm e (bitsAt w 19 5) (bitsAt w 14 5) (bitsAt w 10 4) (bitsAt w 7 3) (bitAt w 6))
  | 0x0B => .ok (.bpermi e (bitsAt w 19 5) (bitsAt w 14 5) (bitsAt w 11 3) (bitAt w 10))
  | 0x0C => .ok (.vxperm e (bitsAt w 19 5) (bitsAt w 14 5) (bitsAt w 9 5) (bitsAt w 5 4) (bitAt w 4))
  | _ => .error .unassigned

/-- The candidate instruction of a communication-slot word, by opcode (R117). -/
def parseC (w : Nat) (e : Option Nat) : Except DecodeErr Instr :=
  match bitsAt w 24 7 with
  | 0x00 => .ok (.seqlv e (bitsAt w 21 3) (bitsAt w 18 3) (bitsAt w 12 6))
  | 0x01 => .ok (.seqgo (bitsAt w 18 6) (bitsAt w 12 6) (bitsAt w 6 6))
  | 0x02 => .ok (.tmov (bitsAt w 18 6) (bitsAt w 12 6) (bitsAt w 6 6) (bitsAt w 2 4))
  | 0x03 =>
    match e with
    | none => .error .extMissing
    | some x => .ok (.mcast x (bitsAt w 18 6) (bitsAt w 12 6) (bitsAt w 6 6) (bitsAt w 2 4))
  | 0x04 => if bitAt w 19 then .ok (.sendMem (bitsAt w 20 4) (bitsAt w 13 6) (bitsAt w 6 7)) else .ok (.send (bitsAt w 20 4) (bitsAt w 14 5) (bitsAt w 12 2))
  | 0x05 => if bitAt w 19 then .ok (.recvMem e (bitsAt w 20 4) (bitsAt w 13 6) (bitsAt w 6 7) (bitsAt w 0 6)) else .ok (.recv e (bitsAt w 20 4) (bitsAt w 14 5) (bitsAt w 12 2) (bitsAt w 8 4) (bitsAt w 2 6))
  | 0x06 => .ok (.nmcmd (bitsAt w 18 6) (bitsAt w 12 6))
  | 0x07 => .ok (.nmfence)
  | 0x08 => .ok (.fence (bitsAt w 21 3))
  | 0x09 => .ok (.atom (bitsAt w 20 4) (bitsAt w 18 2) (bitsAt w 12 6) (bitsAt w 6 6) (bitsAt w 0 6))
  | 0x0A => .ok (.atomr (bitsAt w 20 4) (bitsAt w 18 2) (bitsAt w 12 6) (bitsAt w 6 6) (bitsAt w 0 6))
  | 0x0B => .ok (.shalloc (bitsAt w 18 6) (bitsAt w 12 6) (bitAt w 11))
  | 0x0C => .ok (.shfree (bitsAt w 18 6) (bitsAt w 12 6))
  | 0x0D => .ok (.stamp e (bitsAt w 21 3) (bitsAt w 15 6) (bitsAt w 9 6))
  | 0x0E => .ok (.monarm (bitsAt w 22 2) (bitsAt w 16 6))
  | 0x0F => .ok (.bndset (bitsAt w 20 4) (bitsAt w 14 6) (bitsAt w 8 6) (bitsAt w 6 2) (bitAt w 5))
  | 0x10 => .ok (.ctset (bitsAt w 22 2) (bitsAt w 16 6))
  | 0x11 => .ok (.coll (bitsAt w 18 6) (bitsAt w 12 6))
  | 0x12 => .ok (.pref (bitsAt w 18 6) (bitsAt w 14 4))
  | _ => .error .unassigned

/-- The slot map of a slot number of R122 (B, S0, S1, A, L, V0, V1, F, M, N, C are 0 to 10). -/
def mapOfSlot (slot : Nat) : Nat :=
  match slot with
  | 0 => 0 | 1 => 1 | 2 => 1 | 3 => 2 | 4 => 3 | 5 => 4 | 6 => 4 | 7 => 5 | 8 => 6 | 9 => 7 | 10 => 8 | _ => 9

/-- The candidate instruction of a word in a slot map. -/
def parseWord (map w : Nat) (e : Option Nat) : Except DecodeErr Instr :=
  match map with
  | 0 => parseB w e | 1 => parseS w e | 2 => parseA w e | 3 => parseL w e | 4 => parseV w e
  | 5 => parseF w e | 6 => parseM w e | 7 => parseN w e | 8 => parseC w e | _ => .error .unassigned

/-- Stream instructions stand in V1 only (R117). -/
def Instr.v1Only : Instr → Bool
  | .vspush .. | .vspop .. | .vspopEnd .. | .vsbal .. => true
  | _ => false

/-- A syllable of slot `slot`: total, and rejecting by name (R118). -/
def decodeSyl (slot w : Nat) (e : Option Nat) : Except DecodeErr Instr :=
  match parseWord (mapOfSlot slot) w e with
  | .error r => .error r
  | .ok i =>
    if i.v1Only && slot == 5 then .error .v1Only
    else if i.encode ≠ some (w, e) then .error .reserved
    else if !i.wf then .error .operand
    else .ok i

/-- Little-endian word of four bytes (R3). -/
def word4 (b0 b1 b2 b3 : BitVec 8) : Nat :=
  b0.toNat + 256 * b1.toNat + 65536 * b2.toNat + 16777216 * b3.toNat
/-- The bytes of a 32-bit word, lowest first (R3). -/
def bytes4 (w : Nat) : List (BitVec 8) :=
  [BitVec.ofNat 8 w, BitVec.ofNat 8 (w / 256), BitVec.ofNat 8 (w / 65536), BitVec.ofNat 8 (w / 16777216)]
/-- The 32-bit words of a byte list; a last part of fewer than four bytes is left out. -/
def wordsOf : List (BitVec 8) → List Nat
  | b0 :: b1 :: b2 :: b3 :: rest => word4 b0 b1 b2 b3 :: wordsOf rest
  | _ => []

/-- Mask bit of slot `j` in a header: bit 29 for B down to bit 19 for C (R107). -/
def maskHas (h j : Nat) : Bool := bitAt h (29 - j)

/-- The slot syllables that follow a header, for the slots still to come (R106). -/
def takeSyls (h : Nat) : List Nat → List Nat → Except DecodeErr (List (Nat × Nat × Option Nat) × List Nat)
  | [], ws => .ok ([], ws)
  | j :: js, ws =>
    if maskHas h j then
      match ws with
      | [] => .error .short
      | w :: ws' =>
        if bitAt w 31 then
          match ws' with
          | [] => .error .short
          | x :: ws'' =>
            match takeSyls h js ws'' with
            | .error r => .error r
            | .ok (l, rest) => .ok ((j, w, some x) :: l, rest)
        else
          match takeSyls h js ws' with
          | .error r => .error r
          | .ok (l, rest) => .ok ((j, w, none) :: l, rest)
    else takeSyls h js ws

/-- Header rules of R108. -/
def headerOk (h : Nat) : Bool :=
  match bitsAt h 30 2 with
  | 0 => bitsAt h 0 12 == 0
  | 1 => bitsAt h 19 11 == 0 && bitsAt h 8 4 == 0
  | 2 => bitsAt h 19 11 == 0 && bitsAt h 15 4 == 0 && !bitAt h 12 && bitsAt h 0 12 != 0
  | _ => false

/-- The bundle at the head of a list of words, with the words that follow it (R106 to R110). -/
def decodeBundle : List Nat → Except DecodeErr (Instr × List Nat)
  | [] => .error .short
  | h :: ws =>
    if !headerOk h then .error .header else
    match bitsAt h 30 2 with
    | 0 =>
      match takeSyls h (List.range 11) ws with
      | .error r => .error r
      | .ok (l, rest) => .ok (.bundleIssue (bitsAt h 15 4) (bitAt h 14) (bitAt h 13) (bitAt h 12) l, rest)
    | 1 => .ok (.dictionaryReference (bitsAt h 15 4) (bitAt h 14) (bitAt h 13) (bitAt h 12) (bitsAt h 0 8), ws)
    | _ => .ok (.idleBundle (bitAt h 14) (bitAt h 13) (bitsAt h 0 12), ws)

/-- Mask bits of the syllables present. -/
def maskOf (syls : List (Nat × Nat × Option Nat)) : Nat :=
  syls.foldl (fun acc t => acc + 2 ^ (29 - t.1)) 0

/-- The words of a bundle (R106, R107). -/
def encodeBundle : Instr → Option (List Nat)
  | .bundleIssue rep seg rdv stk syls =>
    some ((maskOf syls + rep * 2 ^ 15 + seg.toNat * 2 ^ 14 + rdv.toNat * 2 ^ 13 + stk.toNat * 2 ^ 12) ::
      (syls.map fun t => t.2.1 :: t.2.2.toList).flatten)
  | .dictionaryReference rep seg rdv stk idx =>
    some [2 ^ 30 + rep * 2 ^ 15 + seg.toNat * 2 ^ 14 + rdv.toNat * 2 ^ 13 + stk.toNat * 2 ^ 12 + idx]
  | .idleBundle seg rdv count => some [2 ^ 31 + seg.toNat * 2 ^ 14 + rdv.toNat * 2 ^ 13 + count]
  | _ => none

/-- The length in bytes of a bundle in text: 4 per header, syllable and extension (R106). -/
def bundleLen : Instr → Nat
  | .bundleIssue _ _ _ _ syls => 4 * (1 + (syls.map fun t => 1 + t.2.2.toList.length).sum)
  | _ => 4

/-- The slot an instruction is given to when it is issued alone: S0 for the S map; V0, or V1 for `VSPUSH`, `VSPOP`
and `VSBAL`, for the V map (R117, R122). -/
def Instr.slot (i : Instr) : Nat :=
  match i.map with
  | 0 => 0 | 1 => 1 | 2 => 3 | 3 => 4 | 4 => if i.v1Only then 6 else 5 | 5 => 7 | 6 => 8 | 7 => 9 | 8 => 10 | _ => 15

/-- The bundle that is one syllable in its own slot and nothing else, as the instruction of that syllable. -/
def soleSyllable : Instr → Option Instr
  | .bundleIssue 0 false false false [(slot, w, e)] =>
    match decodeSyl slot w e with
    | .ok i => if slot = i.slot then some i else none
    | .error _ => none
  | _ => none

/-- How many bits of the word the layout of an instruction fixes: of several readings of a lone word the most
specific one is taken (DEDUCED, log entry 6). -/
def fixedBits (i : Instr) : Nat :=
  match i with
  | .nop => 32 | .endk => 32 | .eret => 32 | .trcctlOff => 32 | .idle => 32 | .vjoin => 32 | .nmfence => 32
  | .loopEnd .. => 30 | .gear .. => 30 | .gearReg .. => 26 | .brr .. => 26 | .ret .. => 26 | .trap .. => 24 | .brk .. => 24
  | .tlbinvAll .. => 26 | .trcctlRec .. => 26 | .trcctlBind .. => 26 | .mzero .. => 26 | .fence .. => 29 | .vshape .. => 29
  | .vsbal .. => 28 | .mnot .. => 24 | .monwait .. => 23 | .monarm .. => 24 | .ctset .. => 24 | .qldm .. => 24 | .qldk .. => 24
  | .launch .. => 24 | .lqstat .. => 24 | .mpopc .. => 22 | .mfirst .. => 22 | .pref .. => 22 | .mclaim .. => 18 | .mrel .. => 18
  | .fexp2 .. => 17 | .flog2 .. => 17 | .frcp .. => 17 | .frsq .. => 17 | .seqlv .. => 19 | .amov .. => 23 | .aclr .. => 15
  | .clz .. => 19 | .popc .. => 19 | .pand .. => 18 | .por .. => 18 | .pxor .. => 18 | .pnot .. => 23 | .aget .. => 19
  | .astr .. => 19 | .aadd .. => 17 | .seqgo .. => 14 | .tmov .. => 10 | .nmcmd .. => 20 | .coll .. => 20 | .shfree .. => 20
  | .stamp .. => 16 | .bndset .. => 13 | .mlatch .. => 23 | .mpush .. => 16 | .mshift .. => 12 | .mfmt .. => 18
  | _ => 8

/-- The instruction a lone word stands for: the slots in header order, the most specific legal reading, the first of equals. -/
def bestReading (w : Nat) (e : Option Nat) : List Nat → Option Instr
  | [] => none
  | slot :: rest =>
    match decodeSyl slot w e, bestReading w e rest with
    | .ok i, some j => if fixedBits j ≤ fixedBits i then some i else some j
    | .ok i, none => some i
    | .error _, r => r

/-- A lone word of the opcode table, its EXT bit asking for an extension word of zeros. -/
def decodeTableWord (nbits w : Nat) : Option Instr :=
  let w := w % 2 ^ nbits % 2 ^ 32
  bestReading w (if bitAt w 31 then some 0 else none) [0, 1, 3, 4, 6, 7, 8, 9, 10]

end Sys2Proof
end

