-- ==== Sys2Proof/Machine/Bits.lean ====
section
/-!
DEFINITION. Bit fields, sign extension, byte order and vector elements, on natural numbers (R3, R7, R52).
-/

namespace Sys2Proof.Machine

open Sys2Proof

/-- Bits `lo + n - 1 : lo` of a number (R3). -/
def bits (x lo n : Nat) : Nat := (x >>> lo) % 2 ^ n
/-- Bit `i` of a number. -/
def bit (x i : Nat) : Bool := bits x i 1 == 1
/-- A number with bits `lo + n - 1 : lo` replaced. -/
def setBits (x lo n y : Nat) : Nat :=
  x - (bits x lo n) * 2 ^ lo + (y % 2 ^ n) * 2 ^ lo
/-- `sext(x, ·)` read as an integer: the two's complement value of an `n`-bit pattern (R7). -/
def sgn (x n : Nat) : Int := if x % 2 ^ n < 2 ^ (n - 1) then (x % 2 ^ n : Nat) else (x % 2 ^ n : Nat) - (2 ^ n : Nat)
/-- `wrap(x, n)` (R7). -/
def wrapI (x : Int) (n : Nat) : Nat := (x % (2 ^ n : Nat)).toNat
/-- `sat_s(x, n)` (R7), as an integer. -/
def satS (x : Int) (n : Nat) : Int :=
  let hi : Int := (2 ^ (n - 1) : Nat) - 1
  let lo : Int := -((2 ^ (n - 1) : Nat) : Int)
  if x > hi then hi else if x < lo then lo else x
/-- `sat_u(x, n)` (R7). -/
def satU (x : Int) (n : Nat) : Int :=
  let hi : Int := (2 ^ n : Nat) - 1
  if x > hi then hi else if x < 0 then 0 else x
/-- The integer an `n`-bit pattern stands for, unsigned or signed (R54). -/
def intOf (u : Bool) (x n : Nat) : Int := if u then (x % 2 ^ n : Nat) else sgn x n

/-- `sext(ext, 64)` of a 32-bit extension word (R132). -/
def sext32 (x : Nat) : Word := BitVec.ofInt 64 (sgn x 32)

/-- The bytes of a number, `n` of them, lowest first (R3). -/
def toBytes : Nat → Nat → List Byte
  | 0, _ => []
  | n + 1, x => BitVec.ofNat 8 x :: toBytes n (x >>> 8)
/-- The number whose bytes these are, lowest first (R3). -/
def ofBytes : List Byte → Nat
  | [] => 0
  | b :: rest => b.toNat + 256 * ofBytes rest

/-- Element `j` of width `w` (R52). -/
def elem (w x j : Nat) : Nat := (x >>> (w * j)) % 2 ^ w
/-- The elements of width `w`, `n` of them, from element 0. -/
def elems (w n x : Nat) : List Nat := (List.range n).map (elem w x)
/-- The number whose elements of width `w` these are. -/
def pack (w : Nat) : List Nat → Nat
  | [] => 0
  | x :: rest => x % 2 ^ w + 2 ^ w * pack w rest

/-- Leading zeros of an `n`-bit number (R134). -/
def clzN (n x : Nat) : Nat := if x = 0 then n else n - 1 - Nat.log2 x
/-- One bits among the low `n` bits. -/
def popN : Nat → Nat → Nat
  | 0, _ => 0
  | n + 1, x => x % 2 + popN n (x / 2)
/-- Index of the lowest one bit among `n` bits from bit `i`, or `i + n` (R219). -/
def firstN : Nat → Nat → Nat → Nat
  | 0, i, _ => i
  | n + 1, i, x => if x % 2 = 1 then i else firstN n (i + 1) (x / 2)

/-- Division and remainder of R55, on `n`-bit patterns. -/
def divN (u : Bool) (n a b : Nat) : Nat :=
  if b % 2 ^ n = 0 then 2 ^ n - 1
  else wrapI (Int.tdiv (intOf u a n) (intOf u b n)) n
def remN (u : Bool) (n a b : Nat) : Nat :=
  if b % 2 ^ n = 0 then a % 2 ^ n
  else wrapI (Int.tmod (intOf u a n) (intOf u b n)) n

/-- Shifts and rotate of R56, on `n`-bit patterns; the amount is bits 7:0 of `b`. -/
def shlN (n a b : Nat) : Nat := if b % 256 ≥ n then 0 else (a <<< (b % 256)) % 2 ^ n
def shrN (n a b : Nat) : Nat := (a % 2 ^ n) >>> (b % 256)
def sraN (n a b : Nat) : Nat := wrapI (sgn a n >>> (b % 256)) n
def rotN (n a b : Nat) : Nat :=
  let k := b % 256 % n
  ((a <<< k) + ((a % 2 ^ n) >>> (n - k))) % 2 ^ n

/-- Bitwise and-not on natural numbers below `2 ^ n`. -/
def andnN (n a b : Nat) : Nat := a &&& (2 ^ n - 1 - b % 2 ^ n)

/-- A list with element `j` replaced. -/
def setAt {α : Type} : List α → Nat → α → List α
  | [], _, _ => []
  | _ :: rest, 0, y => y :: rest
  | x :: rest, j + 1, y => x :: setAt rest j y

/-- Lists without repeats kept sorted: an element added. -/
def insertNat : List Nat → Nat → List Nat
  | [], y => [y]
  | x :: rest, y => if y < x then y :: x :: rest else if y = x then x :: rest else x :: insertNat rest y

/-- The number rounded up to a multiple. -/
def roundUp (x m : Nat) : Nat := (x + (m - 1)) / m * m

end Sys2Proof.Machine
end

