-- ==== Sys2Proof/Machine/Num.lean ====
section
/-!
DEFINITION. Number formats and exact arithmetic (chapter 03): decoding to exact values, `round_fp` and `round_int`,
sums with the sign rule of R69, conversions, MRK8 and the special functions of R79.  Values are exact dyadic numbers;
the four functions that leave the dyadic numbers keep enough bits and a sticky bit, so that the one rounding is right.
-/

namespace Sys2Proof.Machine

open Sys2Proof

/-- Exception flags in the order of FMTCTL bits 16 to 20 (R66): IV 1, DZ 2, OF 4, UF 8, NX 16. -/
def flagIV : Nat := 1
def flagDZ : Nat := 2
def flagOF : Nat := 4
def flagUF : Nat := 8
def flagNX : Nat := 16

/-- A decoded value: NaN (signalling or not), infinity, or a sign with a magnitude `m * 2 ^ e`. -/
inductive Val where
  | nan (sig : Bool)
  | inf (neg : Bool)
  | fin (neg : Bool) (m : Nat) (e : Int)
  deriving DecidableEq, Repr

/-- A layout of R57: fraction bits, exponent bits, bias. -/
structure Fmt where
  mb : Nat
  eb : Nat
  bias : Nat
  deriving DecidableEq, Repr

/-- The layouts by tag (R52, R57); the integer and raw tags have none, FP32 stands for them. -/
def fmtOf (tag : Nat) : Fmt :=
  match tag with
  | 5 => ⟨3, 4, 7⟩
  | 6 => ⟨2, 5, 15⟩
  | 8 => ⟨7, 8, 127⟩
  | 9 => ⟨10, 5, 15⟩
  | _ => ⟨23, 8, 127⟩

/-- Canonical NaN of a floating tag (R57, R59). -/
def canonNaN (tag : Nat) : Nat :=
  match tag with
  | 5 => 0x7F | 6 => 0x7E | 7 => 0x80 | 8 => 0x7FC0 | 9 => 0x7E00 | _ => 0x7FC00000

/-- Length of the leading run of `x` in bits `i - 1 : 0` of `b` (R59). -/
def runLen (x : Bool) (b : Nat) : Nat → Nat
  | 0 => 0
  | i + 1 => if bit b i == x then 1 + runLen x b i else 0

/-- The magnitude of MRK8 code bits 6:0, scaled by `2 ^ 12` (R59). -/
def mrkMag (b : Nat) : Nat :=
  if b = 0 then 0 else
  let x := bit b 6
  let r := runLen x b 7
  let k : Int := if x then r - 1 else -r
  let n := 6 - r
  let e : Nat := if n ≥ 1 then bits b (n - 1) 1 else 0
  let f := if n ≥ 2 then bits b 0 (n - 1) else 0
  let p := n - 1
  -- (2^p + f) * 2^(2k + e + 12 - p)
  let s : Int := 2 * k + e + 12 - p
  if s ≥ 0 then (2 ^ p + f) * 2 ^ s.toNat else (2 ^ p + f) / 2 ^ (-s).toNat

/-- The exact value of a code of a floating tag (R57, R59). -/
def decodeVal (tag c : Nat) : Val :=
  if tag = 7 then
    if c % 256 = 0x80 then .nan false
    else .fin (bit c 7) (mrkMag (c % 128)) (-12)
  else
    let f := fmtOf tag
    let s := bit c (f.mb + f.eb)
    let ex := bits c f.mb f.eb
    let m := bits c 0 f.mb
    let emax := 2 ^ f.eb - 1
    if tag = 5 then
      if ex = emax ∧ m = 7 then .nan false
      else if ex = 0 then .fin s m (1 - (f.bias : Int) - f.mb)
      else .fin s (2 ^ f.mb + m) ((ex : Int) - f.bias - f.mb)
    else if ex = emax then
      if m = 0 then .inf s else .nan (!bit m (f.mb - 1))
    else if ex = 0 then .fin s m (1 - (f.bias : Int) - f.mb)
    else .fin s (2 ^ f.mb + m) ((ex : Int) - f.bias - f.mb)

/-- A magnitude on its way to rounding: `(m + θ) * 2 ^ e` with `0 < θ < 1` where `st`, else `θ = 0`. -/
structure Mag where
  m : Nat
  e : Int
  st : Bool
  deriving DecidableEq, Repr

/-- Rounding modes: R63's codes 0 to 3, and 4 with the random value ρ of R64. -/
structure RMode where
  code : Nat
  rho : Nat := 0
  deriving DecidableEq, Repr

/-- Whether the magnitude is rounded up, from how its remainder compares with half a step (0 none, 1 below, 2 half,
3 above), the parity of the lower neighbour and, for R64, the floor of `t * 2 ^ 16`. -/
def roundUpQ (mode : RMode) (neg : Bool) (cmp : Nat) (odd : Bool) (t16 : Nat) : Bool :=
  match mode.code with
  | 0 => cmp == 3 || (cmp == 2 && odd)
  | 1 => false
  | 2 => !neg && cmp != 0
  | 3 => neg && cmp != 0
  | _ => cmp != 0 && decide (t16 + mode.rho ≥ 2 ^ 16)

/-- Splits a magnitude at quantum exponent `q`: lower multiple, comparison of the remainder with half, `⌊t * 2^16⌋`. -/
def splitAt (x : Mag) (q : Int) : Nat × Nat × Nat :=
  if x.m = 0 then (0, if x.st then 1 else 0, 0)
  else if x.e ≥ q then
    let k := x.m <<< (x.e - q).toNat
    (k, if x.st then 1 else 0, 0)
  else
    let sh := (q - x.e).toNat
    if sh > Nat.log2 x.m + 20 then (0, 1, 0)
    else
      let k := x.m >>> sh
      let r := x.m % 2 ^ sh
      let half := 2 ^ (sh - 1)
      let cmp := if r = 0 ∧ !x.st then 0
        else if r < half then 1
        else if r = half ∧ !x.st then 2 else 3
      (k, cmp, (r <<< 16) >>> sh)

/-- Overflow results of R63: whether the largest finite value is taken instead of infinity. -/
def ovfToMax (tag : Nat) (mode : RMode) (neg : Bool) : Bool :=
  tag == 5 || mode.code == 1 || (mode.code == 2 && neg) || (mode.code == 3 && !neg)

/-- Code of the largest finite magnitude (R57). -/
def maxCode (tag : Nat) : Nat :=
  match tag with
  | 5 => 0x7E | 6 => 0x7B | 7 => 0x7F | 8 => 0x7F7F | 9 => 0x7BFF | _ => 0x7F7FFFFF
/-- Code of positive infinity. -/
def infCode (tag : Nat) : Nat :=
  match tag with
  | 6 => 0x7C | 8 => 0x7F80 | 9 => 0x7C00 | _ => 0x7F800000

/-- Adds the sign to a magnitude code. -/
def signed (tag : Nat) (neg : Bool) (c : Nat) : Nat := if neg then c + 2 ^ (tagW tag - 1) else c
where
  /-- Code width of a floating tag. -/
  tagW (t : Nat) : Nat := match t with | 5 | 6 | 7 => 8 | 8 | 9 => 16 | _ => 32

/-- Largest MRK8 code whose scaled magnitude is at most `y`, searched from code `c` downward (R60: ordered as codes). -/
def mrkBelow (y : Nat) : Nat → Nat
  | 0 => 0
  | c + 1 => if mrkMag (c + 1) ≤ y then c + 1 else mrkBelow y c

/-- `round_fp` into MRK8 (R61, R63, R64). -/
def roundMrk (mode : RMode) (neg : Bool) (x : Mag) : Nat × Nat :=
  if x.m = 0 ∧ !x.st then (0, 0) else
  let s := splitAt x (-12)
  let frac := s.2.1 != 0
  let y := s.1
  if y > 2 ^ 24 ∨ (y = 2 ^ 24 ∧ frac) then (if neg then 0xFF else 0x7F, flagOF + flagNX)
  else
    let lo := mrkBelow y 127
    let a := mrkMag lo
    if a = y ∧ !frac then (if lo = 0 then 0 else if neg then 0x80 + lo else lo, 0)
    else
      let b := mrkMag (lo + 1)
      let two := 2 * y
      let cmp := if two > a + b ∨ (two = a + b ∧ frac) then 3
        else if two = a + b then 2
        else if two + 1 < a + b then 1
        -- `2y + 1 = a + b`: the half step lies inside `(y, y + 1)`
        else if two + 1 = a + b then (if frac then s.2.1 else 1) else 1
      let t16 :=
        if x.e ≥ -12 then ((y - a) <<< 16) / (b - a)
        else
          let sh := (-12 - x.e).toNat
          if sh > Nat.log2 x.m + 60 then 0
          else ((x.m - a * 2 ^ sh) <<< 16) / ((b - a) * 2 ^ sh)
      let up := roundUpQ mode neg cmp (lo % 2 == 1) t16
      let c := if up then lo + 1 else lo
      if c = 0 then (0, flagUF + flagNX)
      else (if neg then 0x80 + c else c, flagNX)

/-- `round_fp(x, F, m, ρ)` for a magnitude with its sign: the code and the flags it raises (R63, R64).  In
E4M3 the value that follows 448 were its exponent unbounded is 480, the magnitude that the NaN code would have (DESIGN CHOICE, log
entry 58). -/
def roundFp (tag : Nat) (mode : RMode) (neg : Bool) (x : Mag) : Nat × Nat :=
  if tag = 7 then roundMrk mode neg x
  else if x.m = 0 ∧ !x.st then (signed tag neg 0, 0)
  else
    let f := fmtOf tag
    let qmin : Int := 1 - (f.bias : Int) - f.mb
    let top : Int := (Nat.log2 x.m : Int) + x.e
    let qmax : Int := (if tag = 5 then 8 else (f.bias : Int)) - f.mb
    let maxMant := if tag = 5 then 14 else 2 ^ (f.mb + 1) - 1
    let q := if x.m = 0 then qmin else max (top - f.mb) qmin
    let ovf := (if ovfToMax tag mode neg then signed tag neg (maxCode tag) else signed tag neg (infCode tag), flagOF + flagNX)
    if q > qmax then ovf
    else
      let s := splitAt x q
      let k := s.1
      let up := roundUpQ mode neg s.2.1 (k % 2 == 1) s.2.2
      let k' := if up then k + 1 else k
      let inexact := s.2.1 != 0
      if q = qmax ∧ k' > maxMant then ovf
      else
        let tiny := decide (q = qmin ∧ k' < 2 ^ f.mb)
        (signed tag neg ((q - qmin).toNat * 2 ^ f.mb + k'),
          if inexact then (if tiny then flagUF + flagNX else flagNX) else 0)

/-- A value rounded into a format, by R70: NaN gives the canonical NaN, with IV if signalling; infinities keep or, for
E4M3 and MRK8, follow R70 and R61. -/
def roundVal (tag : Nat) (mode : RMode) (v : Val) : Nat × Nat :=
  match v with
  | .nan sig => (canonNaN tag, if sig then flagIV else 0)
  | .inf neg =>
    if tag = 5 then (signed 5 neg 0x7E, flagOF + flagNX)
    else if tag = 7 then (0x80, flagIV)
    else (signed tag neg (infCode tag), 0)
  | .fin neg m e => if m = 0 ∧ tag = 7 then (0, 0) else roundFp tag mode neg ⟨m, e, false⟩

/-- A dyadic integer pair `z * 2 ^ e` as a signed value; the sign of zero is given. -/
def valOfInt (z : Int) (e : Int) (zneg : Bool) : Val :=
  if z = 0 then .fin zneg 0 e else .fin (decide (z < 0)) z.natAbs e

/-- The sign-flipped value. -/
def Val.neg : Val → Val
  | .nan s => .nan s
  | .inf n => .inf (!n)
  | .fin n m e => .fin (!n) m e
/-- The absolute value. -/
def Val.abs : Val → Val
  | .nan s => .nan s
  | .inf _ => .inf false
  | .fin _ m e => .fin false m e
def Val.isNan : Val → Bool
  | .nan _ => true
  | _ => false
def Val.isSig : Val → Bool
  | .nan s => s
  | _ => false
def Val.isZero : Val → Bool
  | .fin _ m _ => m == 0
  | _ => false

/-- Exact product with the invalid flag of 0 · ∞ (R67, R69). -/
def mulVal (a b : Val) : Val × Nat :=
  match a, b with
  | .nan s, .nan t => (.nan false, if s || t then flagIV else 0)
  | .nan s, _ => (.nan false, if s then flagIV else 0)
  | _, .nan t => (.nan false, if t then flagIV else 0)
  | .inf s, .inf t => (.inf (s != t), 0)
  | .inf s, .fin t m _ => if m = 0 then (.nan false, flagIV) else (.inf (s != t), 0)
  | .fin s m _, .inf t => if m = 0 then (.nan false, flagIV) else (.inf (s != t), 0)
  | .fin s m e, .fin t n f => (.fin (s != t) (m * n) (e + f), 0)

/-- The least exponent of the finite non-zero terms. -/
def minExp : List Val → Option Int
  | [] => none
  | .fin _ m e :: rest =>
    if m = 0 then minExp rest
    else match minExp rest with
      | none => some e
      | some f => some (min e f)
  | _ :: rest => minExp rest

/-- The signed integer sum of the finite terms at exponent `e0`. -/
def sumAt (e0 : Int) : List Val → Int
  | [] => 0
  | .fin n m e :: rest =>
    (if m = 0 then 0 else if n then -((m <<< (e - e0).toNat : Nat) : Int) else ((m <<< (e - e0).toNat : Nat) : Int)) + sumAt e0 rest
  | _ :: rest => sumAt e0 rest

/-- An exact sum of any number of terms with the sign of zero of R69 and the invalid flag of ∞ − ∞ and signalling terms. -/
def sumVal (ts : List Val) : Val × Nat :=
  let sig := ts.any Val.isSig
  let pinf := ts.any (· == .inf false)
  let ninf := ts.any (· == .inf true)
  if ts.any Val.isNan then (.nan false, if sig || (pinf && ninf) then flagIV else 0)
  else if pinf && ninf then (.nan false, flagIV)
  else if pinf then (.inf false, 0)
  else if ninf then (.inf true, 0)
  else
    match minExp ts with
    | none => (.fin (!ts.isEmpty && ts.all fun t => match t with | .fin n _ _ => n | _ => false) 0 0, 0)
    | some e0 => (valOfInt (sumAt e0 ts) e0 false, 0)

/-- A sum rounded into a format. -/
def sumRound (tag : Nat) (mode : RMode) (ts : List Val) : Nat × Nat :=
  let s := sumVal ts
  let r := roundVal tag mode s.1
  (r.1, s.2 ||| r.2)

/-- `a * b + c` rounded once (R203). -/
def fmaRound (tag : Nat) (mode : RMode) (a b c : Val) : Nat × Nat :=
  let p := mulVal a b
  let r := sumRound tag mode [p.1, c]
  (r.1, p.2 ||| r.2)

/-- Comparison of two finite or infinite values: negative, zero or positive (−0 equals +0). -/
def cmpVal (a b : Val) : Int :=
  match a, b with
  | .inf s, .inf t => (if s then -1 else 1) - (if t then -1 else 1)
  | .inf s, _ => if s then -1 else 1
  | _, .inf t => if t then 1 else -1
  | .fin s m e, .fin t n f =>
    let e0 := min e f
    let x : Int := (m <<< (e - e0).toNat : Nat)
    let y : Int := (n <<< (f - e0).toNat : Nat)
    (if s then -x else x) - (if t then -y else y)
  | _, _ => 0

/-- Exponent ⌊log2 |x|⌋ of a finite non-zero value (R72, R205). -/
def expOf (m : Nat) (e : Int) : Int := (Nat.log2 m : Int) + e

/-- `round_int(x, W, sg, m)` (R65). -/
def roundInt (w : Nat) (sg : Bool) (mode : RMode) (v : Val) : Nat × Nat :=
  let sat := fun (z : Int) => if sg then satS z w else satU z w
  match v with
  | .nan _ => (0, flagIV)
  | .inf neg => (wrapI (if neg then (if sg then -((2 ^ (w - 1) : Nat) : Int) else 0) else (if sg then (2 ^ (w - 1) : Nat) - 1 else (2 ^ w : Nat) - 1)) w, flagIV)
  | .fin neg m e =>
    if m ≠ 0 ∧ expOf m e > 80 then
      (wrapI (if neg then (if sg then -((2 ^ (w - 1) : Nat) : Int) else 0) else (if sg then (2 ^ (w - 1) : Nat) - 1 else (2 ^ w : Nat) - 1)) w, flagIV)
    else
      let s := splitAt ⟨m, e, false⟩ 0
      let up := roundUpQ mode neg s.2.1 (s.1 % 2 == 1) s.2.2
      let k : Int := (if up then s.1 + 1 else s.1 : Nat)
      let z := if neg then -k else k
      let y := sat z
      (wrapI y w, if y ≠ z then flagIV else if s.2.1 ≠ 0 then flagNX else 0)

/-- The exact value of an integer element. -/
def intVal (u : Bool) (w x : Nat) : Val := valOfInt (intOf u x w) 0 false

/-! ### The special functions of R79 -/

/-- Working precision of the fixed-point evaluations, in fraction bits. -/
def prec : Nat := 224

/-- ln 2 in `prec` fraction bits: the sum of 1 / (k 2^k). -/
def ln2Sum : Nat → Nat
  | 0 => 0
  | k + 1 => (1 <<< (prec + 16)) / ((k + 1) * 2 ^ (k + 1)) + ln2Sum k
def ln2 : Nat := ln2Sum 250 >>> 16

/-- Terms of the exponential series of `y / 2 ^ prec` from the `k`-th, whose term is `t`. -/
def expTerms (y : Nat) : Nat → Nat → Nat → Nat
  | 0, _, _ => 0
  | fuel + 1, k, t => t + expTerms y fuel (k + 1) (((t * y) >>> prec) / k)

/-- `2 ^ f` for `f = num / 2 ^ sh` in [0, 1), in `prec` fraction bits. -/
def exp2Frac (num sh : Nat) : Nat := expTerms ((num * ln2) >>> sh) 70 1 (1 <<< prec)

/-- `round_fp(2 ^ x, FP32, RNE)` with its flags and special cases (R79). -/
def fexp2 (v : Val) : Nat × Nat :=
  match v with
  | .nan sig => (canonNaN 10, if sig then flagIV else 0)
  | .inf true => (0, 0)
  | .inf false => (infCode 10, 0)
  | .fin neg m e =>
    if m = 0 then (0x3F800000, 0)
    else if cmpVal v (.fin false 128 0) ≥ 0 then (infCode 10, flagOF + flagNX)
    else if cmpVal v (.fin true 149 0) < 0 then (0, flagUF + flagNX)
    else
      -- x = z * 2^-sh
      let sh := if e < 0 then (-e).toNat else 0
      let z : Int := let a : Int := (m <<< (if e ≥ 0 then e.toNat else 0) : Nat); if neg then -a else a
      let n := z / ((2 ^ sh : Nat) : Int)
      let num := (z % ((2 ^ sh : Nat) : Int)).toNat
      if num = 0 then roundFp 10 ⟨0, 0⟩ false ⟨1, n, false⟩
      else roundFp 10 ⟨0, 0⟩ false ⟨exp2Frac num sh, n - prec, true⟩

/-- Terms t^(2k+1) / (2k+1) of the inverse hyperbolic tangent; `p` is the current power, `t2` the square. -/
def atanhTerms (t2 : Nat) : Nat → Nat → Nat → Nat
  | 0, _, _ => 0
  | fuel + 1, k, p => p / (2 * k + 1) + atanhTerms t2 fuel (k + 1) ((p * t2) >>> prec)

/-- log2 of `z / 2 ^ prec` for z / 2 ^ prec in [1, 2), in `prec` fraction bits. -/
def log2Frac (z : Nat) : Nat :=
  let one := 1 <<< prec
  let t := ((z - one) <<< prec) / (z + one)
  let l := 2 * atanhTerms ((t * t) >>> prec) 75 0 t
  (l <<< prec) / ln2

/-- `round_fp(log2 x, FP32, RNE)` with its flags and special cases (R79). -/
def flog2 (v : Val) : Nat × Nat :=
  match v with
  | .nan sig => (canonNaN 10, if sig then flagIV else 0)
  | .inf false => (infCode 10, 0)
  | .inf true => (canonNaN 10, flagIV)
  | .fin neg m e =>
    if m = 0 then (signed 10 true (infCode 10), flagDZ)
    else if neg then (canonNaN 10, flagIV)
    else
      let lg := Nat.log2 m
      let n := (lg : Int) + e
      if m = 2 ^ lg then (roundVal 10 ⟨0, 0⟩ (valOfInt n 0 false))
      else
        let f := log2Frac ((m <<< prec) >>> lg)
        let z : Int := n * ((1 <<< prec : Nat) : Int) + (f : Int)
        roundFp 10 ⟨0, 0⟩ (decide (z < 0)) ⟨z.natAbs, -(prec : Int), true⟩

/-- `round_fp(1 / x, FP32, RM)` (R79). -/
def frcp (mode : RMode) (v : Val) : Nat × Nat :=
  match v with
  | .nan sig => (canonNaN 10, if sig then flagIV else 0)
  | .inf neg => (signed 10 neg 0, 0)
  | .fin neg m e =>
    if m = 0 then (signed 10 neg (infCode 10), flagDZ)
    else
      let k := Nat.log2 m + 64
      roundFp 10 mode neg ⟨2 ^ k / m, -e - k, decide (2 ^ k % m ≠ 0)⟩

/-- Integer square root, bit by bit from bit `b` (inclusive bound excluded). -/
def isqrtFrom (n : Nat) : Nat → Nat → Nat
  | 0, r => r
  | b + 1, r => if (r + 2 ^ b) * (r + 2 ^ b) ≤ n then isqrtFrom n b (r + 2 ^ b) else isqrtFrom n b r
def isqrt (n : Nat) : Nat := isqrtFrom n (Nat.log2 n / 2 + 1) 0

/-- The seed of 1/√x: 16 significant bits by RNE, as FP32 (R79). -/
def frsq (v : Val) : Nat × Nat :=
  match v with
  | .nan sig => (canonNaN 10, if sig then flagIV else 0)
  | .inf false => (0, 0)
  | .inf true => (canonNaN 10, flagIV)
  | .fin neg m e =>
    if m = 0 then (signed 10 neg (infCode 10), flagDZ)
    else if neg then (canonNaN 10, flagIV)
    else
      let m' := if e % 2 = 0 then m else 2 * m
      let e' := if e % 2 = 0 then e else e - 1
      let k := Nat.log2 m' + 40
      let r := isqrt (2 ^ (2 * k) / m')
      let exact := decide (r * r * m' = 2 ^ (2 * k))
      -- 1/√x = r * 2^(-k - e'/2), sticky unless exact
      let lg := Nat.log2 r
      let q : Int := (lg : Int) - 15
      let s := splitAt ⟨r, 0, !exact⟩ q
      let up := roundUpQ ⟨0, 0⟩ false s.2.1 (s.1 % 2 == 1) 0
      let k' := if up then s.1 + 1 else s.1
      ((roundFp 10 ⟨0, 0⟩ false ⟨k', q - k - e' / 2, false⟩).1, if s.2.1 ≠ 0 then flagNX else 0)

/-! ### Companding (R74, R75) -/

/-- The segment of `y` among breakpoints: the largest `j ≤ 15` with `y ≥ b j`, as an index from `j` up. -/
def segOf (ys : List Val) (y : Val) : Nat → Nat
  | 0 => 0
  | j + 1 => if cmpVal y (ys.getD (j + 1) (.fin false 0 0)) ≥ 0 then j + 1 else segOf ys y j

/-- A finite value as an integer at exponent −320 (every FP32, MRK8 and block-scaled value is a multiple of 2^−320). -/
def fixed320 (v : Val) : Int :=
  match v with
  | .fin n m e => let a : Int := (m <<< (e + 320).toNat : Nat); if n then -a else a
  | _ => 0

/-- Piecewise-linear interpolation at exponent −320: numerator and positive denominator (R74, R75). -/
def interp (xs ys : List Val) (x : Val) : Int × Int :=
  let j := segOf xs x 15
  let g := fun (l : List Val) (i : Nat) => fixed320 (l.getD i (.fin false 0 0))
  let dx := g xs (j + 1) - g xs j
  let dy := g ys (j + 1) - g ys j
  (g ys j * dx + (fixed320 x - g xs j) * dy, dx)

/-- A rational `num / den * 2 ^ -320` as a magnitude for rounding. -/
def magOfRat (num den : Int) : Mag :=
  let n := num.natAbs
  let d := den.natAbs
  ⟨(n <<< 64) / d, -384, decide ((n <<< 64) % d ≠ 0)⟩

/-- The curve applied to a finite value and rounded to MRK8 (R74). -/
def compand (xs ys : List Nat) (mode : RMode) (v : Val) : Nat × Nat :=
  match v with
  | .fin neg m e =>
    if m = 0 then (0, 0)
    else
      let r := interp (xs.map (decodeVal 10)) (ys.map (decodeVal 10)) (.fin false m e)
      roundMrk mode neg (magOfRat r.1 r.2)
  | .inf _ => (0x80, flagIV)
  | .nan sig => (0x80, if sig then flagIV else 0)

/-- The decode-table entry of a code, as FP32 (R75). -/
def decompand (xs ys : List Nat) (c : Nat) : Nat :=
  if c % 256 = 0 then 0
  else if c % 256 = 0x80 then canonNaN 10
  else
    let r := interp (ys.map (decodeVal 10)) (xs.map (decodeVal 10)) (.fin false (mrkMag (c % 128)) (-12))
    (roundFp 10 ⟨0, 0⟩ (bit c 7) (magOfRat r.1 r.2)).1

/-- The value of a block-scaled element (R71). -/
def blockVal (code scale : Nat) : Val :=
  if scale % 256 = 255 then .nan false
  else match decodeVal 7 code with
    | .fin n m e => .fin n m (e + (scale % 256 : Nat) - 127)
    | v => v

/-! ### Element operations of the floating-point instructions (R202, R203, R205) -/

def fadd (tag : Nat) (mode : RMode) (a b : Nat) : Nat × Nat := sumRound tag mode [decodeVal tag a, decodeVal tag b]
def fsub (tag : Nat) (mode : RMode) (a b : Nat) : Nat × Nat := sumRound tag mode [decodeVal tag a, (decodeVal tag b).neg]
def fmul (tag : Nat) (mode : RMode) (a b : Nat) : Nat × Nat :=
  let p := mulVal (decodeVal tag a) (decodeVal tag b)
  let r := roundVal tag mode p.1
  (r.1, p.2 ||| r.2)
def fma (tag : Nat) (mode : RMode) (a b c : Nat) : Nat × Nat :=
  fmaRound tag mode (decodeVal tag a) (decodeVal tag b) (decodeVal tag c)
def fms (tag : Nat) (mode : RMode) (a b c : Nat) : Nat × Nat :=
  fmaRound tag mode (decodeVal tag a) (decodeVal tag b) (decodeVal tag c).neg
def fnma (tag : Nat) (mode : RMode) (a b c : Nat) : Nat × Nat :=
  fmaRound tag mode (decodeVal tag a).neg (decodeVal tag b) (decodeVal tag c)

/-- Minimum or maximum of two codes: a NaN gives the canonical NaN, −0 counts below +0 (R78, R203). -/
def fminmax (tag : Nat) (wantMax : Bool) (a b : Nat) : Nat × Nat :=
  let x := decodeVal tag a
  let y := decodeVal tag b
  if x.isNan || y.isNan then (canonNaN tag, if x.isSig || y.isSig then flagIV else 0)
  else
    let c := cmpVal x y
    let aNeg := match x with | .fin n _ _ => n | .inf n => n | _ => false
    let less := c < 0 || (c == 0 && aNeg)
    (if less == wantMax then b else a, 0)

/-- Comparison conditions of `VFCMP` (R202): the result and the flag. -/
def fcmp (tag cond a b : Nat) : Bool × Nat :=
  let x := decodeVal tag a
  let y := decodeVal tag b
  let fl := if x.isSig || y.isSig then flagIV else 0
  let un := x.isNan || y.isNan
  let c := cmpVal x y
  let t := match cond with
    | 0 => !un && c == 0
    | 1 => un || c != 0
    | 2 => !un && decide (c < 0)
    | 3 => !un && decide (c ≤ 0)
    | 4 => !un && decide (c > 0)
    | 5 => !un && decide (c ≥ 0)
    | _ => un
  (t, fl)

/-- The class bit of a code: ninf, nnorm, nsub, nzero, pzero, psub, pnorm, pinf, snan, qnan from bit 0 (R204). -/
def fclass (tag c : Nat) : Nat :=
  match decodeVal tag c with
  | .nan sig => if sig then 8 else 9
  | .inf neg => if neg then 0 else 7
  | .fin neg m _ =>
    if m = 0 then (if neg then 3 else 4)
    else if bits c (fmtOf tag).mb (fmtOf tag).eb = 0 then (if neg then 2 else 5)
    else (if neg then 1 else 6)

/-- `VFEXP` on one element, with a `w`-bit integer result (R205). -/
def fexpInt (tag w c : Nat) : Nat × Nat :=
  match decodeVal tag c with
  | .nan _ => (2 ^ (w - 1), flagIV)
  | .inf _ => (2 ^ (w - 1) - 1, flagIV)
  | .fin _ m e => if m = 0 then (2 ^ (w - 1), flagIV) else (wrapI (expOf m e) w, 0)

/-- `VFSCL` on one element (R205).  A zero is returned exactly, with its sign, so the program of R246 ends a −0 component at −0 by
the product's sign (R69, R203), where R246 speaks of +0 (DESIGN CHOICE, log entry 74). -/
def fscl (tag : Nat) (mode : RMode) (a : Nat) (n : Int) : Nat × Nat :=
  match decodeVal tag a with
  | .fin neg m e => if m = 0 then (a, 0) else roundFp tag mode neg ⟨m, e + n, false⟩
  | v => roundVal tag mode v

/-- The FP32 code of a value held exactly. -/
def f32 (v : Val) : Nat := (roundVal 10 ⟨0, 0⟩ v).1

end Sys2Proof.Machine
end

