-- ==== Sys2Proof/Config.lean ====
section
/-!
DEFINITION. What the spec leaves open: free values, as constants without a body.  Nothing in the model or in a proof
can see what they are.  Most are applied to a counter of the state (`State.tick`), so that each use is a fresh value.
-/

namespace Sys2Proof.Config

/-- Nanoseconds of physical time that pass in a step (R25; DESIGN CHOICE, log entry 4). -/
opaque elapsed : Nat → Nat
/-- Which of the allowed images an unfenced C-slot source read returns for a granule: 0 the newest (R87, R94; DESIGN CHOICE, log entry 11). -/
opaque oldBytes : Nat → Nat
/-- Core clock cycles that pass while a core issues nothing (R340; DESIGN CHOICE, log entry 15). -/
opaque idleCycles : Nat → Nat
/-- Bytes of the body of a context image (R267; DESIGN CHOICE, log entry 14). -/
opaque imageByte : Nat → Nat → Byte
/-- A byte of a Kloty event record that R347 gives no meaning (DESIGN CHOICE, log entry 28). -/
opaque eventByte : Nat → Nat → Byte
/-- The signature of the module's feature words and revision (R267; DESIGN CHOICE, log entry 14). -/
opaque fsig : Nat → Nat
/-- The module's number within the load-store domain (R140; DESIGN CHOICE, log entry 35). -/
opaque moduleNumber : Nat → BitVec 12
/-- Whether a shelf switch grants a request of a tenant against its quota (R297; DESIGN CHOICE, log entry 25). -/
opaque shelfGrants : Nat → Bool
/-- Where a shelf switch places an allocation (R296; DESIGN CHOICE, log entry 25). -/
opaque shelfPlace : Nat → Nat
/-- Whether an atomic in flight at a lost primary switch had performed (R298; DESIGN CHOICE, log entry 25). -/
opaque lostAtomic : Nat → Bool
/-- Milliseconds from power-on to READY (R350; DESIGN CHOICE, log entry 17). -/
opaque bootMs : Nat → Nat
/-- Core cycles that a change of gear takes (R331; DESIGN CHOICE, log entry 15). -/
opaque gearCycles : Nat → Nat
/-- A field of a shelf-loss notice that R286 does not state (DESIGN CHOICE, log entry 32). -/
opaque noticeField : Nat → Nat
/-- Fabric destination of the Strand switch behind a port (R294, R311, R323; DESIGN CHOICE, log entry 34). -/
opaque switchAt : Nat → Nat
/-- Whether a peer module's ingress table takes a request of a tenant to an extent (R318; DESIGN CHOICE, log entry 33). -/
opaque peerTakes (tick tenant extent : Nat) : Bool
/-- A byte of an attestation report, whose layout R355 does not state (DESIGN CHOICE, log entry 16). -/
opaque reportByte : Nat → Nat → Byte
/-- A byte of what the maker has written in the MINFO area: part number, revision, serial, certificate, and the bytes that R356
leaves open (DESIGN CHOICE, log entry 60). -/
opaque minfoByte : Nat → Byte
/-- Whether a save finds a memory error while it writes its image (R267; DESIGN CHOICE, log entry 14). -/
opaque saveError : Nat → Bool
/-- Whether an emergency save has been written with a marker whose digest matches, when power goes (R344; DESIGN CHOICE, log entry
50). -/
opaque markerOk : Nat → Bool
/-- The length of an emergency save, which holds what is dirty (R343, R344; DESIGN CHOICE, log entry 50). -/
opaque saveLen : Nat → Nat
/-- The temperature at an interface when it is trained, in bands of 10 °C (R350; DESIGN CHOICE, log entry 61). -/
opaque tempBand : Nat → Nat

end Sys2Proof.Config
end

