-- ==== Sys2Proof/Machine/State.lean ====
section
/-!
DEFINITION. The state of the whole module as plain data: hardware contexts, cores, partitions, memory, asynchronous
operations, fabric, power, boot and host attachment, with the state after module power-on.  INVENTORY.md lists every
field with the rule that names it.
-/

namespace Sys2Proof.Machine

open Sys2Proof

/-- Why the machine stops.  The only stop the spec describes is the removal of power (R336): the board does it and
nothing runs after it. -/
inductive Fault where
  /-- Raised by every step once `POWER_REMOVAL` has taken place (R336).  Safe: the module is off until `POWER_ON`. -/
  | poweredOff
  deriving DecidableEq, Repr

/-- Why the model gives an instruction no meaning. -/
inductive Refusal where
  /-- Raised by an arm of `exec` whose instruction is not modelled yet.  Safe: nothing is claimed about it. -/
  | notModelled (mnemonic : String)
  deriving DecidableEq, Repr

/-- A vector register: bits and format tag (R52). -/
structure VReg where
  bits : Vec
  tag : Nat
  deriving DecidableEq, Repr

/-- A tensor bound register (R191). -/
structure Bound where
  lo : Word
  hi : Word
  fk : Bool
  mode : Nat
  deriving DecidableEq, Repr

/-- A companding table: the 17 breakpoints X and Y as FP32 codes; empty when never loaded (R74). -/
structure CTable where
  xs : List Nat
  ys : List Nat
  deriving DecidableEq, Repr

/-- A hardware loop level (R144). -/
structure LoopLvl where
  act : Bool
  remain : Nat
  start : Nat
  exit : Nat
  index : Nat
  deriving DecidableEq, Repr

/-- What happens after the delay bundles (R120). -/
inductive PendKind where
  | jump (target : Nat)
  /-- A `BRP` not taken: the delay bundles still count as such. -/
  | untaken
  | loopEnter (lvl : Nat)
  | loopEnd (lvl : Nat)
  | endk
  | eret
  deriving DecidableEq, Repr

/-- A pending transfer: its kind and the delay bundles left (R120). -/
structure Pend where
  kind : PendKind
  left : Nat
  deriving DecidableEq, Repr

/-- The array format (R225). -/
structure ArrFmt where
  fa : Nat
  fb : Nat
  ca : Bool
  cb : Bool
  ct : Nat
  ua : Bool
  ub : Bool
  deriving DecidableEq, Repr

/-- A sticky record: the syllable, its step count and the bundle or entry it came from (R112, R123). -/
structure Sticky where
  word : Nat
  ext : Option Nat
  k : Nat
  dict : Option Nat
  off : Nat
  deriving DecidableEq, Repr

/-- A hold latch (R115). -/
structure Hold where
  reg : Nat
  val : VReg
  deriving DecidableEq, Repr

/-- A stream queue (R217). -/
structure Stream where
  items : List Nat
  tag : Nat
  deriving DecidableEq, Repr

/-- One level of the copy sequencer (R169); the global fields are kept beside the levels. -/
structure SeqLvl where
  count : Nat
  sorg : Int
  sstr : Int
  sbox : Nat
  dorg : Int
  dstr : Int
  dbox : Nat
  deriving DecidableEq, Repr

/-- The address fields of a trap record that name a bundle: LTIME, PC, slot, repetition (R262). -/
structure Where where
  lt : Nat
  pc : Nat
  slot : Nat
  rep : Nat
  deriving DecidableEq, Repr

/-- A cause with what its record says of it (R261 to R263). -/
structure Cause where
  code : Nat
  slot : Nat := 15
  addr : Nat := 0
  info0 : Nat := 0
  info1 : Nat := 0
  info2 : Nat := 0
  info3 : Nat := 0
  tcode : Nat := 0
  /-- The poisoned line that was consumed (R326). -/
  line : Option Nat := none
  deriving DecidableEq, Repr

/-- A trap record before it is given its SEQ (R262). -/
structure Rec where
  cause : Cause
  cls : Nat
  lvl : Nat
  ctx : Nat
  core : Nat
  part : Nat
  ended : Bool
  at_ : Where
  /-- Of a bound event that waits in the partition: it stands behind the record that its context holds (R264). -/
  behind : Bool
  deriving DecidableEq, Repr

/-- Knowledge that a release carries: the releasing core, its scope, its vector; whether it is that of a `FENCE`, which an
atomic carries and only another `FENCE` acquires (R98, R103).  A vector's key is `8 * core + home scope`: an entry serves the
locations of that home scope (R93, R98; DEDUCED, log entry 57). -/
structure Rel where
  core : Nat
  scope : Nat
  vec : KV Nat
  atom : Bool
  /-- Of a `FENCE`: scopes and vectors of earlier fences whose scope is wider (R98). -/
  wider : List (Nat × KV Nat)
  deriving DecidableEq, Repr

/-- The result of an instruction on its way to becoming visible (R119). -/
inductive Res where
  | g (r : Nat) (x : Word)
  | p (r : Nat) (b : Bool)
  | a (r : Nat) (x : VAddr)
  | stride (r l : Nat) (x : VAddr)
  | lc (n : Nat) (x : Nat)
  | v (r : Nat) (x : VReg)
  | m (r : Nat) (x : Mask)
  | vshape (rc : Nat)
  | qm (n : Nat) (x : Vec)
  | qk (n : Nat) (x : Vec)
  | bd (n : Nat) (b : Bound)
  | ct (n : Nat) (t : CTable)
  | fmtSet (x : Nat)
  | fmtOr (flags : Nat)
  | arr (f : ArrFmt)
  | seqLvl (l f : Nat) (x : Nat)
  /-- An accumulator row `64 * tile + row` (R230). -/
  | acc (row : Nat) (x : Vec)
  /-- An operand-slot row `64 * slot + row`. -/
  | os (row : Nat) (x : BitVec 1024)
  /-- A latch row `64 * (2 * latch + plane) + row`. -/
  | lt (row : Nat) (x : BitVec 1024)
  /-- A unit set to zero bits: freshly claimed, or by `MZERO`, which the undo log covers (R49, R224, R231). -/
  | zero (kind unit : Nat) (log : Bool)
  /-- Units of a kind released (R224). -/
  | release (kind first cnt : Nat)
  /-- Bytes of the core scratchpad, by global address, and the view they were written in (R85, R167). -/
  | store (swz : Bool) (bytes : List (Nat × Byte))
  /-- A C-slot write of the core scratchpad (R167, third place). -/
  | cstore (bytes : List (Nat × Byte)) (rel : Option Rel)
  /-- An atomic on the core scratchpad: target, operation, width code, operand, compare value, return bytes' place (R187). -/
  | atom (ga op w b cmp : Nat) (ret : List Nat) (rel : Option Rel)
  /-- A write of a privileged register (R257): selector, index, value, and the target of CTXSEL at issue. -/
  | spr (sel idx : Nat) (x : Nat) (tcore tctx : Nat)
  deriving DecidableEq, Repr

/-- A result with the cycles at which it issued and becomes visible (R32). -/
structure InFlight where
  iss : Nat
  due : Nat
  res : Res
  deriving DecidableEq, Repr

/-- A destination granule of a scheduled transfer: bytes arrived, elements still to come, fill bit (R26, R28). -/
structure Gran where
  base : Nat
  left : Nat
  cover : List Nat
  data : KV Nat
  written : Bool
  deriving DecidableEq, Repr

/-- A scheduled transfer (R26 to R29). -/
structure Xfer where
  id : Nat
  due : Nat
  seq : Nat
  claim : Nat
  dead : Bool
  grans : List Gran
  at_ : Where
  deriving DecidableEq, Repr

/-- A write of the core scratchpad, for the view-order rule (R87): view 0 linear, 1 swizzled, 2 not an L-slot store of
the context. -/
structure Recent where
  ga : Nat
  len : Nat
  view : Nat
  issued : Nat
  cycle : Nat
  deriving DecidableEq, Repr

/-- A store that no FENCE follows yet: the granule, the issue cycle, the granule's bytes before it (R94). -/
structure Unfenced where
  base : Nat
  iss : Nat
  old : List Byte
  deriving DecidableEq, Repr

/-- The part of a context that a segment shadows (R49): all register files and what goes with them. -/
structure Regs where
  g : KV Word
  p : KV Bool
  a : KV VAddr
  str : KV VAddr
  lc : KV Nat
  loops : KV LoopLvl
  v : KV VReg
  m : KV Mask
  vshape : Nat
  qm : KV Vec
  qk : KV Vec
  bd : KV Bound
  ct : KV CTable
  fmtctl : Nat
  ltime : Nat
  pc : Nat
  rep : Nat
  idleLeft : Nat
  pend : Option Pend
  arr : ArrFmt
  sticky : KV Sticky
  holds : KV Hold
  streams : KV Stream
  seq : KV SeqLvl
  fill : Nat
  saddr : Nat
  inflight : List InFlight
  xfers : List Xfer
  xseq : Nat
  recent : List Recent
  vjoins : List Nat
  unfenced : List Unfenced
  deriving DecidableEq, Repr

/-- A monitor (R92): the dword it watches, the last value it observed, the release that supplied it. -/
structure Monitor where
  armed : Bool
  ga : Nat
  value : Option Nat
  from_ : Option Rel
  pendId : Option Nat
  deriving DecidableEq, Repr

/-- A channel beat (R44). -/
structure Beat where
  ts : Nat
  data : BitVec 512
  poison : Bool
  sender : Nat
  sctx : Nat
  schan : Nat
  stask : Nat
  deriving DecidableEq, Repr

/-- A channel's send binding: peer (0 for this module), launch group or sequence number, rank, channel (R302). -/
structure SendBind where
  peer : Nat
  group : Nat
  rank : Nat
  dch : Nat
  deriving DecidableEq, Repr

/-- An undo-log entry: the unit (kind and number) and its pre-image (R49). -/
structure Undo where
  kind : Nat
  unit : Nat
  image : Nat
  deriving DecidableEq, Repr

/-- A claim of a matrix unit: the owning context and the release mark of an open segment (R224). -/
structure Claim where
  owner : Nat
  mark : Bool
  deriving DecidableEq, Repr

/-- An open segment (R47 to R51, R326, R327). -/
structure Segment where
  shadow : Regs
  latches : KV (BitVec 1024)
  claims : KV Claim
  undo : List Undo
  units : List (Nat × Nat)
  beats : KV (List Beat)
  chain : List Nat
  residue : Nat
  reissue : Bool
  /-- The name the next operation had at the entry: operations from it on were issued inside the segment (R51). -/
  firstId : Nat
  deriving DecidableEq, Repr

/-- What a context knows of its kernel and its part (R36, R41, R84, R125, R302). -/
structure TaskInfo where
  task : Nat
  seq : Nat
  rank : Nat
  kcore : Nat
  kdie : Nat
  nc : Nat
  nd : Nat
  group : Nat
  ltab : Nat
  zmap : Nat
  textVa : Nat
  textSz : Nat
  dictVa : Nat
  dictN : Nat
  gen : Nat
  deriving DecidableEq, Repr

/-- States of a context (R38). -/
inductive Status where
  | empty | ready | frozen | suspended
  deriving DecidableEq, Repr

/-- A dependence a context is frozen on (R31, R274). -/
inductive Dep where
  | barrier (bar phase : Nat)
  | recv (ch n : Nat)
  | monitor (mon val : Nat)
  /-- A granule due by the cycle `lat` after the issue (R27). -/
  | granule (base lat : Nat)
  | skid (need : Nat)
  | seqQueue | credit (ch n : Nat) | nmQueue | intake | collQueue
  | idle (prod obs : Nat)
  deriving DecidableEq, Repr

/-- A hardware context (R38, R266). -/
structure Ctx where
  status : Status
  suspCause : Nat
  level : Nat
  busy : Bool
  /-- It has become ready since its start or load, and has not become empty (R361). -/
  resident : Bool
  regs : Regs
  dep : Option Dep
  info : TaskInfo
  sched0 : Word
  sched1 : Word
  mons : KV Monitor
  obs : Nat
  bkpt : KV Word
  energy : Nat
  ensat : Bool
  gearReq : Nat
  stvec : Nat
  sepc : Nat
  sstat : Nat
  sptgt : Nat
  sidle : Nat
  ctxsel : Nat
  held : Option Rec
  deferred : List Rec
  stepPending : Bool
  /-- The resume point of a `STEP`, offset and repetition, whose first issue no breakpoint matches (R123). -/
  stepAt : Nat × Nat
  seg : Option Segment
  sends : KV SendBind
  recvs : KV Bool
  queues : KV (List Beat)
  outBeats : KV Nat
  nmOut : Nat
  nmUnfenced : List Nat
  /-- Fences that still hold accesses back: scope, the core's join count after the fence, the accesses before it (R94, R95, R98). -/
  fences : List (Nat × Nat × List Nat)
  nmFences : List Nat
  lastFence : Option Rel
  seen : List Rel
  deriving DecidableEq, Repr

/-- A named barrier (R88). -/
structure Barrier where
  exp : Nat
  passed : Nat
  cnt0 : Nat
  cnt1 : Nat
  brk : Bool
  kv : KV Nat
  deriving DecidableEq, Repr

/-- An entry of a core launch queue (R306). -/
structure LqEntry where
  task : Nat
  pri : Nat
  seq : Nat
  rank : Nat
  deriving DecidableEq, Repr

/-- A TLB entry: partition, page base and size, where it leads, its rights, the table lines it came from (R282); of the shelf
window, the generation and the mirror of the page (R296). -/
structure TlbE where
  part : Nat
  va : Nat
  size : Nat
  ga : Nat
  flags : Nat
  lines : List Nat
  leaf : Nat
  count : Nat
  shelf : Bool := false
  gen : Nat := 0
  mirror : Option Nat := none
  deriving DecidableEq, Repr

/-- A core. -/
structure Core where
  ctxs : KV Ctx
  active : Option Nat
  last : Nat
  acc : KV Vec
  os : KV (BitVec 1024)
  lt : KV (BitVec 1024)
  claims : KV Claim
  bars : KV Barrier
  j : Nat
  k : KV Nat
  lq : List LqEntry
  capg : Nat
  rails : Nat
  /-- A change of gear in progress: the new gear, the context it is made for, 4 once that is empty, and the cycles of it charged so far
  (R331, R361). -/
  changing : Option (Nat × Nat × Nat)
  /-- The loop buffer: start and exit of the pinned body, the offsets of its bundles that have been fetched (R121). -/
  pin : Option (Nat × Nat × List Nat)
  tlb : List TlbE
  ras : KV Nat
  ticks : Nat
  part : Nat
  halted : Bool
  deriving DecidableEq, Repr

/-- One allocation of the shelf table (R296): state 0 live, 1 degraded, 2 lost. -/
structure Alloc where
  base : Nat
  size : Nat
  peer1 : Nat
  peer2 : Option Nat
  saddr : Nat
  gen : Nat
  state : Nat
  deriving DecidableEq, Repr

/-- A descriptor waiting in an intake queue, with its issuer: core, context, bundle, task and level (R303). -/
structure IntakeE where
  desc : Nat
  pri : Nat
  core : Nat
  ctx : Nat
  lt : Nat
  pc : Nat
  task : Nat
  seq : Nat
  level : Nat
  deriving DecidableEq, Repr

/-- Trace control (R308, R309). -/
structure Trace where
  mode : Nat
  err : Bool
  ovf : Bool
  end_ : Bool
  brk : Bool
  pos : Nat
  base : Nat
  size : Nat
  used : Nat
  block : Nat
  seq0 : Nat
  cores : List Nat
  starts : KV (List Nat)
  deriving DecidableEq, Repr

/-- A partition configuration as Kloty reads it from the signed image (R291). -/
structure PartCfg where
  num : Nat
  cores : List Nat
  extents : List Nat
  cluUnits : List (Nat × Nat)
  dieUnits : List (Nat × Nat)
  tcb : Nat
  peers : KV (Nat × Nat)
  tenant : Nat
  slots : KV (List Nat)
  walk : KV Nat
  strict : Bool
  feat : Nat
  share : Nat
  text : Nat
  textSz : Nat
  args : Nat
  /-- Virtual address where Kloty maps the 32 KiB that hold the TCB, 0 for none (R288; DESIGN CHOICE, log entry 5). -/
  kmap : Nat
  /-- Ports of the route to each fabric destination, by preference (R313). -/
  routes : KV (List Nat)
  /-- Source module and tenant number pairs of its ingress entries (R318). -/
  ingress : List (Nat × Nat)
  deriving DecidableEq, Repr

/-- A completion word with the stamp place and value it stands for, the releases its arrival and stamp make (R103, R168), and
the operations it waits for as a release of domain scope (R319). -/
structure CWord where
  phase : Nat
  bar : Nat
  ba : Bool
  st : Bool
  scope : Nat
  tset : Nat
  saddr : Nat
  val : Nat
  ar : Option Rel
  sr : Option Rel
  wait : List Nat
  deriving DecidableEq, Repr

/-- The fields of a launch descriptor (R300). -/
structure Desc where
  khdr : Nat
  args : Nat
  chtab : Nat
  chn : Nat
  nc : Nat
  nd : Nat
  gear : Nat
  flags : Nat
  group : Nat
  rsv : Nat
  done : Nat
  staddr : Nat
  cmask : Nat
  deriving DecidableEq, Repr

/-- What a kernel header gives (R84, R110, R125): text, dictionary, barriers, loop table, gear, slot group, zone map, features. -/
structure Kernel where
  textVa : Nat
  textSz : Nat
  dictVa : Nat
  dictN : Nat
  bars : List Nat
  ltab : Nat
  sgear : Nat
  slotg : Nat
  zmap : Nat
  feats : List Nat
  deriving DecidableEq, Repr

/-- A descriptor that the intake has read and checked and whose chosen cores it waits for (R304, R305). -/
structure Serving where
  key : Nat
  entry : IntakeE
  desc : Desc
  kernel : Kernel
  chans : List Nat
  cores : List Nat
  /-- Trace block and first sequence number of the bind run that chose the cores, none outside bind mode (R309). -/
  bind : Option (Nat × Nat)
  deriving DecidableEq, Repr

/-- A `TRCCTL` whose memory takes no request yet: its mode, its block's address, its issuer and its bundle (R308, R313, R334; DESIGN
CHOICE, log entry 80). -/
structure TraceReq where
  mode : Nat
  va : Nat
  core : Nat
  ctx : Nat
  task : Nat
  level : Nat
  at_ : Where
  deriving DecidableEq, Repr

/-- A partition (R291). -/
structure Part where
  live : Bool
  cfg : PartCfg
  change : Option PartCfg
  root : Nat
  ringBase : Nat
  ringLen : Nat
  tcbOk : Bool
  tqbase : Nat
  tqctl : Nat
  tqprod : Nat
  tqcons : Nat
  tqstamp : Nat
  tqdrop : Nat
  pctl : Nat
  shelf : List Alloc
  allocs : Nat
  nextSeq : Nat
  intake : KV (List IntakeE)
  served : KV Nat
  trace : Trace
  window : List Nat
  charged : Nat
  lowerAt : Nat
  below : Nat
  kq : List Rec
  ringHeld : List (List Byte)
  /-- Records of bound events whose place in the queue cannot be written (R281). -/
  recHeld : List Rec
  /-- Notices to Kloty that a record or ring entry is held (R281). -/
  notices : Nat
  serving : Option Serving
  /-- `TRCCTL`s not yet carried out, the oldest first (R308). -/
  tracePend : List TraceReq
  /-- Launch groups whose task here has ended: what still comes for them is discarded (R156). -/
  ended : List Nat
  deriving DecidableEq, Repr

/-- A race-detector record (R103). -/
structure Race where
  gen : Nat
  wr : Option (Nat × Nat × Bool)
  rd0 : Option (Nat × Nat)
  rd1 : Option (Nat × Nat)
  ov : Bool
  f : Nat
  deriving DecidableEq, Repr

/-- A piece of an element of a copy: destination address, source address or the bytes themselves (R171); whether it is the first of
its source granule, and the first of its destination granule, which count for a mode 3 page (R285); whether it goes on the element
of the piece before it. -/
structure Elem where
  dst : Nat
  src : Option Nat
  len : Nat
  data : List Byte
  first : Bool
  lead : Bool
  cont : Bool
  deriving DecidableEq, Repr

/-- Progress of a copy on the Kloty slow path (R173, R286): 0 not on it, 1 to post, 2 waiting for REPLY, 3 mapped once; the
page's base and SIZE code. -/
structure Slow where
  stage : Nat
  va : Nat
  info : Nat
  reply : Nat
  size : Nat
  deriving DecidableEq, Repr

/-- A near-memory command descriptor (R179). -/
structure NmDesc where
  op : Nat
  fmt : Nat
  count : Nat
  dst : Nat
  src : Nat
  alpha : Nat
  beta : Nat
  stat : Nat
  deriving DecidableEq, Repr

/-- A collective descriptor (R193). -/
structure CollDesc where
  op : Nat
  fmt : Nat
  red : Nat
  count : Nat
  src : Nat
  dst : Nat
  group : Nat
  nrank : Nat
  rank : Nat
  root : Nat
  deriving DecidableEq, Repr

/-- A stretch of a near-memory range inside one 64 KiB page: first virtual address, bytes, global address. -/
structure Stretch where
  va : Nat
  len : Nat
  ga : Nat
  deriving DecidableEq, Repr

/-- A near-memory command that its stack has taken (R96): its status if it fails, else 0, and its ranges as they were translated then. -/
structure NmPlace where
  status : Nat
  dst : List Stretch
  src : List Stretch
  deriving DecidableEq, Repr

/-- What an asynchronous operation does (R33, R119 C slot). -/
inductive OpK where
  /-- A posted store: virtual addresses inside one granule with their bytes (R82, R83). -/
  | store (bytes : List (Nat × Byte))
  | stamp (va val : Nat) (rel : Rel)
  /-- A stamp of the own scratchpad that follows what has not performed yet: its physical bytes (R91; DEDUCED, log entry 66). -/
  | ownStamp (bytes : List (Nat × Byte)) (rel : Rel)
  /-- Arrivals still to be delivered, and the stamp that follows them: address, value (R89, R168). -/
  | arrive (bar phase : Nat) (cores : List Nat) (rel : Rel) (stamp : Option (Nat × Nat × Rel))
  /-- An arrival for the cores of the task on another module (R150): to a peer, or, with peer 0, one received from there, for the
  task of a launch group here. -/
  | signal (peer lgroup bar phase : Nat)
  | copy (elems : List Elem) (sched : Bool) (cw : CWord) (slow : Slow) (started : Bool)
  | mcast (src dst size : Nat) (left : List Nat) (data : Option (List Byte)) (cw : CWord) (slow : Slow)
  | monRead (mon va : Nat)
  | atom (remote : Bool) (va op w b cmp : Nat) (ret : List Nat) (rel : Option Rel)
  | beat (bind : SendBind) (b : Beat) (refused : Bool)
  | credit (core ctx ch n task : Nat)
  | nmcmd (d : NmDesc) (cw : CWord) (stack : Option Nat) (taken : Option NmPlace)
  | nmfence (hbmStacks cmds : List Nat)
  | shalloc (size : Nat) (mir : Bool) (ret : List Nat)
  | shfree (va : Nat) (ret : List Nat)
  /-- A collective, with its contribution where that was read from the own scratchpad at the issue (R27). -/
  | coll (d : CollDesc) (cw : CWord) (slow : Slow) (own : Option (List Byte))
  | tlbinv (kind va : Nat) (cw : CWord)
  | save (core : Bool) (tcore tctx va : Nat) (was : List Nat) (cw : CWord)
  | load (core : Bool) (tcore tctx va : Nat) (cw : CWord)
  | walk (va : Nat)
  deriving DecidableEq, Repr

/-- An asynchronous operation: its name, its place in issue order, its issuer, what must be done before it (R33, R89, R95);
whether it has been sent over the fabric to `dst` and its mirror and waits for the acknowledgement (R319), whether it adds
nothing to a counter word (R285), the ports that have granted its next transfer unit (R19), and of an access sent out the page
that translated it, base and size (R289). -/
structure Async where
  id : Nat
  ord : Nat
  core : Nat
  ctx : Nat
  task : Nat
  seq : Nat
  part : Nat
  level : Nat
  j : Nat
  at_ : Where
  after : List Nat
  unacked : Bool
  dst : Nat
  mir : Option Nat
  uncounted : Bool
  grants : List Nat
  page : Nat × Nat
  kind : OpK
  deriving DecidableEq, Repr

/-- A part of a task: its core and whether it has started, where it runs, how it ended (R307): 0 waiting, 1 running,
2 out in an image, 3 ended, 4 aborted. -/
structure TaskPart where
  core : Nat
  ctx : Nat
  state : Nat
  deriving DecidableEq, Repr

/-- A tile task (R300, R301, R307). -/
structure Task where
  id : Nat
  part : Nat
  seq : Nat
  pri : Nat
  desc : Nat
  args : Nat
  gear : Nat
  nc : Nat
  nd : Nat
  group : Nat
  parts : List TaskPart
  info : TaskInfo
  sgear : Nat
  slotg : Nat
  bars : List Nat
  chans : List Nat
  done : CWord
  launch : IntakeE
  failed : Bool
  causes : List Rec
  state : Nat
  deriving DecidableEq, Repr

/-- A registered participant of a collective: its rank and descriptor, its operation on this module, or none with the
contribution that a participant on another module has sent (R320); its context, of another module the source. -/
structure CollRank where
  desc : CollDesc
  op : Option Nat
  core : Nat
  ctx : Nat
  src : Nat
  data : List Byte
  deriving DecidableEq, Repr

/-- A collective (R320, R321, R323): its partition, task (or, of several modules, LGROUP) and group, its participants, the first
element of the chunk in work, the chunk's staged contributions, how many are combined, the partial result, whether a switch
reduces it, and whether the chunk in work has fallen back to the chain. -/
structure Coll where
  id : Nat
  part : Nat
  task : Nat
  lgroup : Nat
  group : Nat
  ranks : List CollRank
  started : Bool
  chunk : Nat
  staged : List (List Byte)
  hop : Nat
  partial_ : List Byte
  viaSwitch : Bool
  fell : Bool
  deriving DecidableEq, Repr

/-- One link of a port (R312, R314): up, or being retrained. -/
structure Link where
  up : Bool
  training : Bool
  fw0 : Nat
  fw1 : Nat
  deriving DecidableEq, Repr

/-- A fabric port (R310, R316): far side 0 none, 1 module, 2 switch; flit replays and link
failures counted. -/
structure Port where
  links : KV Link
  far : Nat
  rtry : Nat
  fails : Nat
  deriving DecidableEq, Repr

/-- An HBM4 stack's state: frequency, pause, busy ranges (issuer command, first and last line) (R96, R334). -/
structure Stack where
  freq : Nat
  paused : Bool
  busy : List (Nat × Nat × Nat)
  queue : List Nat
  deriving DecidableEq, Repr

/-- A slot table: owners in force, and those that take effect at the next frame (R19, R292). -/
structure SlotTab where
  own : KV Nat
  next : Option (KV Nat)
  deriving DecidableEq, Repr

/-- A flash bank (R335, R346, R351 to R353): version, recorded rollback floor, the verdicts on key, signatures and digests, whether
it has reached READY; of its configuration image the power cap, the partitions, the extents of the BAR2 window, and the
persistent regions of the second tier (first GiB of the range, GiB). -/
structure Bank where
  version : Nat
  keyOk : Bool
  sigOk : Bool
  digestOk : Bool
  floor : Nat
  ready : Bool
  cap : Nat
  cfgs : List PartCfg
  bar2 : List Nat
  regions : List (Nat × Nat)
  deriving DecidableEq, Repr

/-- A stored training record (R350): the verdicts on its digest and on the link check, the temperature band at training. -/
structure TrainRec where
  digestOk : Bool
  linkOk : Bool
  band : Nat
  deriving DecidableEq, Repr

/-- A slot of the signature index (R355): reserved-to value, sequence number, whether it is valid. -/
structure IdxSlot where
  upTo : Nat
  seq : Nat
  valid : Bool
  deriving DecidableEq, Repr

/-- The boot flash (R342, R350, R351, R355), with its training records by interface, and what the board holds: the capacity in
GiB of the expanders on each CXL port, the ports whose expander does not train, the ports whose expander reports persistent
capacity with a flush on power loss (R352). -/
structure Flash where
  bankA : Bank
  bankB : Bank
  floor : Nat
  macOk : Bool
  pufOk : Bool
  records : KV TrainRec
  wear : KV Nat
  idx0 : IdxSlot
  idx1 : IdxSlot
  exps : List Nat
  expBad : List Nat
  persist : List Nat
  deriving DecidableEq, Repr

/-- A saved context or core image, known by its body bytes (R267; DESIGN CHOICE, log entry 14). -/
structure Image where
  part : Nat
  core : Nat
  ctx : Option Nat
  ctxs : KV Ctx
  acc : KV Vec
  os : KV (BitVec 1024)
  lt : KV (BitVec 1024)
  bars : KV Barrier
  scratch : KV Byte
  claims : KV Claim
  poison : List Nat
  /-- Length, and the counter value that its body bytes were taken at (DESIGN CHOICE, log entry 14). -/
  len : Nat
  tick : Nat
  deriving DecidableEq, Repr

/-- What the device still owes to a word of memory that takes no request (R313, R334): an entry's count to its leaf's counter word (R285),
one to the RINGDROP of a partition (R281, R286), or a dword of a partition at a virtual address (R264, R308). -/
inductive Owed where
  | count (core : Nat) (e : TlbE)
  | drop (p : Nat)
  | word (p va val : Nat)
  deriving DecidableEq, Repr

/-- A checkpoint or emergency save in the safe tier with its marker: signature, generation, `PTIME` of the stop, length, the
verdict on its digest, the unusable tasks (R344, R353). -/
structure Snap where
  sig : Nat
  gen : Nat
  ptime : Nat
  len : Nat
  digestOk : Bool
  cores : KV Core
  parts : KV Part
  mem : KV Byte
  poison : List Nat
  races : KV Race
  locKnow : KV Rel
  hbmStacks : KV Stack
  colls : List Coll
  images : List Image
  owed : List Owed
  ops : List Async
  tasks : List Task
  unusable : List Nat
  deriving DecidableEq, Repr

/-- Host attachment, boot and identity (R345 to R356). -/
structure HostIf where
  stage : Nat
  ended : List Nat
  slow : Bool
  bank : Nat
  fcode : Nat
  fatal : Bool
  negok : Bool
  bootMs : Nat
  foffer : KV Nat
  facc : KV Nat
  fack : KV Nat
  capset : Nat
  ckctl : Nat
  ckst : Nat
  ckgen : Nat
  evbase : Nat
  evprod : Nat
  attreq : Nat
  attBusy : Bool
  xmss : Nat
  msix : KV Nat
  bar2 : List Nat
  /-- The bytes that the last host read of the window has returned (R345). -/
  readData : List Byte
  extLost : List Nat
  /-- The regions of the safe tier in force (R352). -/
  safe : List (Nat × Nat)
  /-- `PTIME` at which the cores stopped for a checkpoint (R344, R353). -/
  stopAt : Nat
  resumeList : List (Nat × Nat)
  deriving DecidableEq, Repr

/-- Power, thermal, ballast (R333 to R337, R342). -/
structure Power where
  cap : Nat
  capNext : Option Nat
  overSince : Nat
  hold : KV Bool
  emergency : Bool
  droop : KV Bool
  estimate : KV Nat
  issued : KV Nat
  ballast : KV Nat
  /-- `PTIME` at which a cluster's ballast event began (R337). -/
  ballastAt : KV Nat
  wear : KV Nat
  deriving DecidableEq, Repr

/-- An item from the fabric that waits for the items before it (R311). -/
structure FabItem where
  src : Nat
  tenant : Nat
  seq : Nat
  kind : Nat
  addr : Nat
  bytes : List Byte
  deriving DecidableEq, Repr

/-- The fabric of the module (R311 to R318). -/
structure Fabric where
  ports : KV Port
  routes : KV (List Nat)
  unreach : List Nat
  rxSeq : KV Nat
  txSeq : KV Nat
  held : List FabItem
  /-- Accepted requests with their partition, waiting at the ingress port (R318). -/
  arrived : List (Nat × FabItem)
  ingress : KV Nat
  hostAtomics : Nat
  deriving DecidableEq, Repr

/-- Whose turn it is: the action of an agent that takes place next (DESIGN CHOICE, log entry 1). -/
inductive Input where
  | event (i : Instr)
  | turn (core : Nat)
  /-- A residue check of the named slot fails at the next issue of the context, first at the named lane or row (R327, R328). -/
  | residue (core ctx slot lane : Nat)
  deriving DecidableEq, Repr

/-- The state of the module. -/
structure State where
  cores : KV Core
  parts : KV Part
  mem : KV Byte
  poison : List Nat
  races : KV Race
  locKnow : KV Rel
  hbmStacks : KV Stack
  ops : List Async
  nextId : Nat
  cluTlb : KV (List TlbE)
  walkPoison : KV (List Nat)
  owed : List Owed
  slots : KV SlotTab
  tasks : List Task
  colls : List Coll
  fabric : Fabric
  power : Power
  host : HostIf
  flash : Flash
  images : List Image
  checkpoint : Option Snap
  emergency : Option Snap
  capCtl : Nat
  ptime : Nat
  tick : Nat
  cur : Nat
  inputs : List Input
  residue : List (Nat × Nat × Nat × Nat)
  powered : Bool
  deriving DecidableEq, Repr

/-! ### Values before anything has run -/

def VReg.zero : VReg := ⟨0, 0⟩
def Bound.zero : Bound := ⟨0, 0, false, 0⟩
def CTable.none : CTable := ⟨[], []⟩
def LoopLvl.zero : LoopLvl := ⟨false, 0, 0, 0, 0⟩
def ArrFmt.start : ArrFmt := ⟨8, 8, false, false, 0, false, false⟩
def SeqLvl.start : SeqLvl := ⟨1, 0, 0, 0, 0, 0, 0⟩
def Stream.start : Stream := ⟨[], 3⟩
def Monitor.start : Monitor := ⟨false, 0, Option.none, Option.none, Option.none⟩
def Barrier.start : Barrier := ⟨0, 0, 0, 0, false, []⟩
def TaskInfo.none : TaskInfo := ⟨0, 0, 0, 0, 0, 1, 1, 0, 0, 0, 0, 0, 0, 0, 0⟩

/-- Registers at task start but for what R40 takes from the launch; before any task the same values (DESIGN CHOICE, log entry 3). -/
def Regs.start : Regs :=
  { g := [], p := [], a := [], str := [], lc := [], loops := [], v := [], m := [], vshape := 0, qm := [], qk := [],
    bd := [], ct := [], fmtctl := 0, ltime := 0, pc := 0, rep := 0, idleLeft := 0, pend := Option.none,
    arr := ArrFmt.start, sticky := [], holds := [], streams := [], seq := [], fill := 0, saddr := 0, inflight := [],
    xfers := [], xseq := 0, recent := [], vjoins := [], unfenced := [] }

/-- An empty context after power-on: GEAR.REQ is spring (R140). -/
def Ctx.reset : Ctx :=
  { status := .empty, suspCause := 0, level := 0, busy := false, resident := false, regs := Regs.start, dep := Option.none,
    info := TaskInfo.none, sched0 := 0, sched1 := 0, mons := [], obs := 0, bkpt := [], energy := 0, ensat := false,
    gearReq := 2, stvec := 0, sepc := 0, sstat := 0, sptgt := 0, sidle := 0, ctxsel := 0, held := Option.none, deferred := [],
    stepPending := false, stepAt := (0, 0), seg := Option.none, sends := [], recvs := [], queues := [],
    outBeats := [], nmOut := 0, nmUnfenced := [], fences := [], nmFences := [], lastFence := Option.none, seen := [] }

/-- A core after power-on: CAPG is spring+ and the rails hold spring (R140). -/
def Core.reset : Core :=
  { ctxs := [], active := Option.none, last := 0, acc := [], os := [], lt := [], claims := [], bars := [], j := 0,
    k := [], lq := [], capg := 3, rails := 2, changing := Option.none, pin := Option.none, tlb := [], ras := [], ticks := 0, part := 0,
    halted := false }

def Trace.off : Trace := ⟨0, false, false, false, false, 0, 0, 0, 0, 0, 0, [], []⟩

def PartCfg.none : PartCfg :=
  { num := 0, cores := [], extents := [], cluUnits := [], dieUnits := [], tcb := 0, peers := [], tenant := 0,
    slots := [], walk := [], strict := false, feat := 0, share := 0, text := 0, textSz := 0, args := 0, kmap := 0,
    routes := [], ingress := [] }

def Part.none : Part :=
  { live := false, cfg := PartCfg.none, change := Option.none, root := 0, ringBase := 0, ringLen := 0, tcbOk := false,
    tqbase := 0, tqctl := 0, tqprod := 0, tqcons := 0, tqstamp := 0, tqdrop := 0, pctl := 0, shelf := [], allocs := 0,
    nextSeq := 0, intake := [], served := [], trace := Trace.off, window := [], charged := 0, lowerAt := 0, below := 0, kq := [],
    ringHeld := [], recHeld := [], notices := 0, serving := Option.none,
    tracePend := [], ended := [] }

def Link.down : Link := ⟨false, false, 0, 0⟩
def Port.reset : Port := ⟨[], 0, 0, 0⟩
def Stack.reset : Stack := ⟨0, false, [], []⟩
def SlotTab.reset : SlotTab := ⟨[], Option.none⟩
def Race.empty : Race := ⟨0, Option.none, Option.none, Option.none, false, 0⟩

/-- The flash as shipped: both banks hold the verified images of this revision, whose one persistent region is the first
expander's 1,024 GiB; no training record is stored, so that the first boot trains every interface in full; each CXL port has
an expander of 8,192 GB (DESIGN CHOICE, log entry 17). -/
def Flash.shipped : Flash :=
  { bankA := ⟨1, true, true, true, 0, true, 300, [], [], [(0, 1024)]⟩,
    bankB := ⟨0, true, true, true, 0, true, 300, [], [], [(0, 1024)]⟩,
    floor := 0, macOk := true, pufOk := true, records := [], wear := [], idx0 := ⟨0, 0, true⟩, idx1 := ⟨0, 0, true⟩,
    exps := [7629, 7629, 7629, 7629], expBad := [], persist := [0] }

def HostIf.reset : HostIf :=
  { stage := 0, ended := [], slow := false, bank := 0, fcode := 0, fatal := false, negok := false, bootMs := 0,
    foffer := [], facc := [], fack := [], capset := 300, ckctl := 0, ckst := 0, ckgen := 0, evbase := 0, evprod := 0,
    attreq := 0, attBusy := false, xmss := 0, msix := [], bar2 := [], readData := [], extLost := [], safe := [],
    stopAt := 0, resumeList := [] }

def Power.reset : Power :=
  { cap := 300, capNext := Option.none, overSince := 0, hold := [], emergency := false, droop := [], estimate := [],
    issued := [], ballast := [], ballastAt := [], wear := [] }

/-- The host's atomics by R187: operations 0, 8 and 9 at widths 1 and 2 (DESIGN CHOICE, log entry 26). -/
def Fabric.reset : Fabric :=
  { ports := [], routes := [], unreach := [], rxSeq := [], txSeq := [], held := [], arrived := [], ingress := [],
    hostAtomics := 2 ^ 1 + 2 ^ 2 + 2 ^ 25 + 2 ^ 26 + 2 ^ 28 + 2 ^ 29 }

/-- The module right after power-on (R5: the Reset column gives the value after module power-on). -/
def State.reset : State :=
  { cores := [], parts := [], mem := [], poison := [], races := [], locKnow := [], hbmStacks := [], ops := [],
    nextId := 1, cluTlb := [], walkPoison := [], owed := [], slots := [], tasks := [], colls := [], fabric := Fabric.reset,
    power := Power.reset, host := HostIf.reset, flash := Flash.shipped, images := [], checkpoint := Option.none,
    emergency := Option.none, capCtl := 0, ptime := 0, tick := 0, cur := 0, inputs := [], residue := [],
    powered := true }

end Sys2Proof.Machine
end

