-- ==== Sys2Proof/Machine/Access.lean ====
section
/-!
DEFINITION. Reading and writing the parts of the state by name: cores, contexts, partitions, registers, memory bytes.
Every register file has its home in `Regs`; the hard-wired registers g0, p0 and m0 are decided here and nowhere else.
-/

namespace Sys2Proof.Machine

open Sys2Proof

/-! ### Cores, contexts, partitions -/

def State.core (s : State) (c : Nat) : Core := s.cores.get Core.reset c
def State.setCore (s : State) (c : Nat) (k : Core) : State := { s with cores := s.cores.set c k }
def State.ctx (s : State) (c x : Nat) : Ctx := (s.core c).ctxs.get Ctx.reset x
def State.setCtx (s : State) (c x : Nat) (k : Ctx) : State :=
  s.setCore c { s.core c with ctxs := (s.core c).ctxs.set x k }
def State.modCtx (s : State) (c x : Nat) (f : Ctx → Ctx) : State := s.setCtx c x (f (s.ctx c x))
def State.modCore (s : State) (c : Nat) (f : Core → Core) : State := s.setCore c (f (s.core c))
def State.part (s : State) (p : Nat) : Part := s.parts.get Part.none p
def State.setPart (s : State) (p : Nat) (q : Part) : State := { s with parts := s.parts.set p q }
def State.modPart (s : State) (p : Nat) (f : Part → Part) : State := s.setPart p (f (s.part p))
def State.modRegs (s : State) (c x : Nat) (f : Regs → Regs) : State :=
  s.modCtx c x fun k => { k with regs := f k.regs }
/-- The partition that owns a core (R291); housekeeping core `512 + d` belongs to 128 + d (DESIGN CHOICE, log entry 1). -/
def State.partOf (s : State) (c : Nat) : Nat := if c ≥ 512 then c - 384 else (s.core c).part
/-- Cluster and die of a core (R10). -/
def cluOf (c : Nat) : Nat := c / 8
def dieOf (c : Nat) : Nat := if c ≥ 512 then c - 512 else c / 128
/-- The housekeeping core of a die and its trap queue's number (R254, R347). -/
def kloty (d : Nat) : Nat := 128 + d
/-- Lowest core of a partition: its control core (R254). -/
def PartCfg.control (p : PartCfg) : Nat := p.cores.foldl Nat.min (p.cores.headD 0)

/-- The feature word FEAT0 in force for a partition (R348); on a housekeeping core, which no partition owns, none is (DESIGN CHOICE, log
entry 1). -/
def State.feat0 (s : State) (p : Nat) : Nat := (s.host.fack.get 0 0) &&& (s.part p).cfg.feat
/-- A capability in force for a partition: bit `b` of FEAT0. -/
def State.hasFeat (s : State) (p b : Nat) : Bool := bit (s.feat0 p) b

/-- A context holds a task (R39). -/
def Ctx.holds (k : Ctx) : Bool := decide (k.status ≠ .empty)
/-- Gear the context runs in: the lower of REQ and CAPG (R140). -/
def Core.curOf (k : Core) (x : Nat) : Nat := Nat.min (k.ctxs.get Ctx.reset x).gearReq k.capg
/-- Control-core context 0 is the supervisor's place (R254). -/
def State.isSuper (s : State) (c x : Nat) : Bool := x == 0 && c == (s.part (s.partOf c)).cfg.control

/-! ### Registers -/

/-- `g`n: g0 reads 0 (R113). -/
def Regs.rg (r : Regs) (n : Nat) : Word := if n = 0 then 0 else r.g.get 0 n
/-- `p`n: p0 reads true. -/
def Regs.rp (r : Regs) (n : Nat) : Bool := if n = 0 then true else r.p.get false n
def Regs.ra (r : Regs) (n : Nat) : VAddr := r.a.get 0 n
def Regs.rstr (r : Regs) (n l : Nat) : VAddr := r.str.get 0 (4 * n + l)
def Regs.rlc (r : Regs) (n : Nat) : Nat := r.lc.get 0 n
def Regs.rv (r : Regs) (n : Nat) : VReg := r.v.get VReg.zero n
/-- `m`n: m0 reads all ones. -/
def Regs.rm (r : Regs) (n : Nat) : Mask := if n = 0 then BitVec.allOnes 256 else r.m.get 0 n
def Regs.loop (r : Regs) (l : Nat) : LoopLvl := r.loops.get LoopLvl.zero l
def Regs.level (r : Regs) (l : Nat) : SeqLvl := r.seq.get SeqLvl.start l
def Regs.sq (r : Regs) (n : Nat) : Stream := r.streams.get Stream.start n

/-- Writes; those of g0, p0 and m0 are discarded (R113). -/
def Regs.wg (r : Regs) (n : Nat) (x : Word) : Regs := if n = 0 then r else { r with g := r.g.set n x }
def Regs.wp (r : Regs) (n : Nat) (b : Bool) : Regs := if n = 0 then r else { r with p := r.p.set n b }
def Regs.wm (r : Regs) (n : Nat) (x : Mask) : Regs := if n = 0 then r else { r with m := r.m.set n x }
def Regs.wa (r : Regs) (n : Nat) (x : VAddr) : Regs := { r with a := r.a.set n x }
def Regs.wstr (r : Regs) (n l : Nat) (x : VAddr) : Regs := { r with str := r.str.set (4 * n + l) x }
def Regs.wv (r : Regs) (n : Nat) (x : VReg) : Regs := { r with v := r.v.set n x }

/-- One field of a sequencer level, or of the global fields as level 6 (R169, R170). -/
def Regs.wseq (r : Regs) (l f : Nat) (x : Nat) : Regs :=
  if l = 6 then (if f = 0 then { r with fill := x % 2 ^ 64 } else { r with saddr := x % 2 ^ 57 })
  else
    let v := r.level l
    let v := match f with
      | 0 => { v with count := x % 2 ^ 32 }
      | 1 => { v with sorg := sgn x 32 }
      | 2 => { v with sstr := sgn x 64 }
      | 3 => { v with sbox := x % 2 ^ 32 }
      | 4 => { v with dorg := sgn x 32 }
      | 5 => { v with dstr := sgn x 64 }
      | _ => { v with dbox := x % 2 ^ 32 }
    { r with seq := r.seq.set l v }

/-! ### Free values -/

/-- PTIME as it is sampled: the time kept plus a free amount (DESIGN CHOICE, log entry 4). -/
def State.now (s : State) : Nat := s.ptime + Config.elapsed s.tick
/-- The state once time has been sampled. -/
def State.sampled (s : State) : State := { s with ptime := s.now % 2 ^ 64, tick := s.tick + 1 }

/-! ### Global addresses (DESIGN CHOICE, log entry 1)

One memory holds every byte of the module and what it reaches: this module's LPA space below 2^48, the space of fabric
destination D from (1 + D) * 2^48, core scratchpads from 2^70, cluster scratchpads from 2^71, die scratchpads from 2^72. -/

def coreBase (c : Nat) : Nat := 2 ^ 70 + c * 2 ^ 22
def cluBase (k : Nat) : Nat := 2 ^ 71 + k * 2 ^ 23
def dieBase (d : Nat) : Nat := 2 ^ 72 + d * 2 ^ 26
def farBase (dest : Nat) : Nat := (1 + dest) * 2 ^ 48
def scratchSize : Nat := 3 * 2 ^ 20

/-- A byte of the scratchpad of a core. -/
def inCore (c ga : Nat) : Bool := decide (coreBase c ≤ ga ∧ ga < coreBase c + scratchSize)
/-- A byte of some core's scratchpad. -/
def isCoreGa (ga : Nat) : Bool := decide (2 ^ 70 ≤ ga ∧ ga < 2 ^ 71)

/-- Bytes of an HBM4 stack (R16, R275). -/
def stackBytes : Nat := 64 * 10 ^ 9
/-- What an LPA of this module names (R275): 3 HBM4, 4 second tier, 7 host, none for a hole. -/
def lpaClass (lpa : Nat) : Option Nat :=
  if lpa < 12 * 2 ^ 36 then (if lpa % 2 ^ 36 < stackBytes then some 3 else none)
  else if 0x200000000000 ≤ lpa ∧ lpa < 0x400000000000 then some 4
  else if 0x400000000000 ≤ lpa ∧ lpa < 0x800000000000 then some 7
  else none
/-- The HBM4 stack of a global address. -/
def stackOf (ga : Nat) : Option Nat := if ga < 12 * 2 ^ 36 then some (ga / 2 ^ 36) else none
/-- The home scope of a global address (R81): 1 core, 2 cluster, 3 die, 4 module, 5 domain. -/
def homeOf (ga : Nat) : Nat :=
  if ga ≥ 2 ^ 72 then 3 else if ga ≥ 2 ^ 71 then 2 else if ga ≥ 2 ^ 70 then 1 else if ga ≥ 2 ^ 48 then 5 else 4
/-- An HBM4 stack accepts no request while it retrains (R334). -/
def stackPaused (s : State) (ga : Nat) : Bool :=
  match stackOf ga with
  | some t => (s.hbmStacks.get Stack.reset t).paused
  | none => false
/-- A granule of an HBM4 stack is in a busy range (R96). -/
def nmBusy (s : State) (granule : Nat) : Bool :=
  match stackOf (64 * granule) with
  | some st => (s.hbmStacks.get Stack.reset st).busy.any fun b => decide (b.2.1 ≤ granule ∧ granule ≤ b.2.2)
  | none => false

/-- Memory classes in the order of the SCHEDLAT fields (R18, R36): 0 core, 1 cluster, 2 die, 3 HBM4, 4 second tier,
5 shelf, 6 peer, 7 host. -/
def classOf (shelf : Bool) (ga : Nat) : Nat :=
  if ga ≥ 2 ^ 72 then 2 else if ga ≥ 2 ^ 71 then 1 else if ga ≥ 2 ^ 70 then 0
  else if ga ≥ 2 ^ 48 then (if shelf then 5 else 6)
  else (lpaClass ga).getD 3

/-- The SCHEDLAT field of a class (R36). -/
def schedLat (k : Ctx) (cls : Nat) : Nat :=
  let w0 := k.sched0.toNat
  let w1 := k.sched1.toNat
  match cls with
  | 0 | 1 => bits w0 32 16
  | 2 => bits w0 16 16
  | 3 => bits w0 48 16
  | 4 => bits w0 0 16
  | 5 => bits w1 48 16
  | 6 => bits w1 32 16
  | _ => bits w1 16 16

/-! ### Bytes -/

/-- `n` bytes from a global address. -/
def readBytes (m : KV Byte) : Nat → Nat → List Byte
  | 0, _ => []
  | n + 1, ga => m.get 0 ga :: readBytes m n (ga + 1)
/-- A little-endian number of `n` bytes (R3). -/
def readNat (m : KV Byte) (n ga : Nat) : Nat := ofBytes (readBytes m n ga)
/-- Bytes at the listed addresses. -/
def gather (m : KV Byte) (gas : List Nat) : List Byte := gas.map (m.get 0)
/-- Writes of bytes, in order. -/
def putBytes : KV Byte → List (Nat × Byte) → KV Byte
  | m, [] => m
  | m, (ga, b) :: rest => putBytes (m.put 0 ga b) rest
/-- Consecutive addresses with their bytes. -/
def cells : Nat → List Byte → List (Nat × Byte)
  | _, [] => []
  | ga, b :: rest => (ga, b) :: cells (ga + 1) rest
def seqFrom : Nat → Nat → List Nat
  | _, 0 => []
  | a, n + 1 => a :: seqFrom (a + 1) n

/-- The view map of R85 on offsets of the core scratchpad; none is the allocation-format fault. -/
def physOff (zmap off : Nat) : Option Nat :=
  let row := off / 1024
  let code := bits zmap (4 * (row / 64)) 3
  if code > 5 then none
  else
    let bank := off / 16 % 64
    let p := bank ^^^ ((row % 2 ^ (6 - code)) * 2 ^ code)
    some (1024 * row + 16 * p + off % 16)

/-! ### Poison and monitors -/

/-- A line is poisoned (R325). -/
def State.poisoned (s : State) (line : Nat) : Bool := s.poison.contains line
/-- A write covers all 64 bytes of a line. -/
def covers (bytes : List (Nat × Byte)) (line : Nat) : Bool :=
  (seqFrom (64 * line) 64).all fun ga => bytes.any fun b => b.1 == ga
/-- Poisoned lines that a write covers only in part: it performs nothing there and consumes them (R325). -/
def partLines (s : State) (bytes : List (Nat × Byte)) : List Nat :=
  s.poison.filter fun l => (bytes.any fun b => b.1 / 64 == l) && !covers bytes l

/-- What a monitor sees of a write (R92): the value its dword holds after it. -/
def Monitor.observe (m : Monitor) (mem : KV Byte) (bytes : List (Nat × Byte)) (rel : Option Rel) : Monitor :=
  if m.armed && m.value.isSome && bytes.any (fun b => decide (m.ga ≤ b.1 ∧ b.1 < m.ga + 8)) then
    { m with value := some (readNat mem 8 m.ga), from_ := rel.filter (!·.atom) }
  else m
def Monitor.hit (m : Monitor) (bytes : List (Nat × Byte)) : Bool :=
  m.armed && m.value.isSome && bytes.any (fun b => decide (m.ga ≤ b.1 ∧ b.1 < m.ga + 8))
/-- All monitors of a context see a write, and `obs` counts what an `IDLE` waits for (R274). -/
def Ctx.observe (mem : KV Byte) (bytes : List (Nat × Byte)) (rel : Option Rel) (k : Ctx) : Ctx :=
  if k.mons.any (fun m => m.2.hit bytes) then
    { k with mons := k.mons.map (fun m => (m.1, m.2.observe mem bytes rel)), obs := k.obs + 1 }
  else k
/-- Another's write makes the bytes it covers no store of the context (R87). -/
def Ctx.shade (bytes : List (Nat × Byte)) (k : Ctx) : Ctx :=
  let hit := bytes.filter fun b => k.regs.recent.any fun r => decide (r.ga ≤ b.1 ∧ b.1 < r.ga + r.len ∧ r.view < 2)
  if hit.isEmpty then k
  else { k with regs := { k.regs with
    recent := k.regs.recent ++ hit.map fun b => ⟨b.1, 1, 2, k.regs.ltime, k.regs.ltime⟩ } }

/-- What the dwords written carry from now on: the knowledge of the write, or none (R98). -/
def noteRel (m : KV Rel) (rel : Option Rel) : List Nat → KV Rel
  | [] => m
  | d :: rest => noteRel (match rel with | some r => m.set d r | none => m.erase d) rel rest
/-- A pre-image of a scratchpad unit with the bytes that others write there (R51; DEDUCED, log entry 79). -/
def Undo.patch (bytes : List (Nat × Byte)) (u : Undo) : Undo :=
  if u.kind ≠ 0 then u
  else { u with image := bytes.foldl (fun m b => if b.1 / 64 = u.unit then setBits m (8 * (b.1 % 64)) 8 b.2.toNat else m) u.image }
/-- A rewind of the context's open segment leaves these bytes as they are now. -/
def Ctx.patch (bytes : List (Nat × Byte)) (k : Ctx) : Ctx :=
  { k with seg := k.seg.map fun g => { g with undo := g.undo.map (Undo.patch bytes) } }
/-- No open segment undoes the write of these bytes. -/
def State.patchLogs (s : State) (bytes : List (Nat × Byte)) : State :=
  { s with
    cores := s.cores.map fun c => (c.1, { c.2 with ctxs := c.2.ctxs.map fun x => (x.1, x.2.patch bytes) })
    images := s.images.map fun im => { im with ctxs := im.ctxs.map fun x => (x.1, x.2.patch bytes) } }
/-- The bytes of a write that perform (R325): those of poisoned lines written only in part are left out. -/
def performed (s : State) (bytes : List (Nat × Byte)) : List (Nat × Byte) :=
  let bad := partLines s bytes
  if bad.isEmpty then bytes else bytes.filter fun b => !bad.contains (b.1 / 64)
/-- A write of memory (R83, R92, R325): lines written whole are clean again, every monitor observes what was written, that of a
context which is out in an image too. -/
def State.storeRaw (s : State) (bytes : List (Nat × Byte)) (rel : Option Rel) : State :=
  let bytes := performed s bytes
  let mem := putBytes s.mem bytes
  { s with
    mem := mem
    poison := s.poison.filter fun l => !(covers bytes l)
    locKnow := noteRel s.locKnow rel (bytes.map fun b => b.1 / 8 * 8).eraseDups
    cores := s.cores.map fun c => (c.1, { c.2 with
      ctxs := c.2.ctxs.map fun x => (x.1, (x.2.observe mem bytes rel).shade bytes) })
    images := s.images.map fun im => { im with ctxs := im.ctxs.map fun x => (x.1, x.2.observe mem bytes rel) } }

/-- The one write of memory that is not a context's own: no rewind undoes it. -/
def State.store (s : State) (bytes : List (Nat × Byte)) (rel : Option Rel) : State :=
  (s.storeRaw bytes rel).patchLogs (performed s bytes)

/-- A number written little-endian (R3). -/
def State.storeNat (s : State) (ga n x : Nat) (rel : Option Rel) : State := s.store (cells ga (toBytes n x)) rel

/-! ### Kloty's event log (R347) -/

/-- Raises a vector of the host link (R345). -/
def State.raise (s : State) (v : Nat) : State := { s with host := { s.host with msix := s.host.msix.set v (s.host.msix.get 0 v + 1) } }
/-- A host address as an LPA of this module (R275; DESIGN CHOICE, log entry 28). -/
def hostLpa (a : Nat) : Nat := 0x400000000000 + a % 2 ^ 46
/-- Kloty writes an event record, raises EVPROD and then vector 4.  The record begins with what the spec says it holds; R347 does
not state its other bytes. -/
def State.logRecord (s : State) (known : List Byte) : State :=
  let bytes := (known ++ ((List.range 64).map (Config.eventByte s.tick)).drop known.length).take 64
  let s := s.store (cells (hostLpa (s.host.evbase + 64 * (s.host.evprod % 64))) bytes) none
  { s with tick := s.tick + 1, host := { s.host with evprod := (s.host.evprod + 1) % 2 ^ 64 } }.raise 4
def State.logEvent (s : State) : State := s.logRecord []

/-! ### The fabric (R311) -/

/-- Fabric destination of a global address. -/
def destOf (ga : Nat) : Option Nat := if 2 ^ 48 ≤ ga ∧ ga < 2 ^ 70 then some (ga / 2 ^ 48 - 1) else none
/-- An item to a destination takes the next route sequence. -/
def State.sendOn (s : State) (dest : Nat) : State :=
  { s with fabric := { s.fabric with txSeq := s.fabric.txSeq.put 0 dest ((s.fabric.txSeq.get 0 dest + 1) % 2 ^ 32) } }
/-- An item from a destination had the route sequence that was expected of it. -/
def State.heard (s : State) (dest : Nat) : State :=
  { s with fabric := { s.fabric with rxSeq := s.fabric.rxSeq.put 0 dest ((s.fabric.rxSeq.get 0 dest + 1) % 2 ^ 32) } }
/-- A request and its response, of an access to a global address that goes over the fabric. -/
def State.exchange (s : State) (ga : Nat) : State :=
  match destOf ga with
  | some d => (s.sendOn d).heard d
  | none => s
/-- So many requests to a global address that goes over the fabric, each with its response. -/
def State.exchangeN (s : State) (ga n : Nat) : State :=
  match destOf ga with
  | some d => { s with fabric := { s.fabric with
      txSeq := s.fabric.txSeq.put 0 d ((s.fabric.txSeq.get 0 d + n) % 2 ^ 32)
      rxSeq := s.fabric.rxSeq.put 0 d ((s.fabric.rxSeq.get 0 d + n) % 2 ^ 32) } }
  | none => s
/-- A port that leads to a destination: the first of its route with a link up (R313). -/
def livePort (s : State) (dest : Nat) : Option Nat :=
  (s.fabric.routes.get [] dest).find? fun p =>
    [0, 1, 2, 3].any fun l => ((s.fabric.ports.get Port.reset p).links.get Link.down l).up
/-- What a port keeps of the far side's link feature words: reserved bits and unlisted combinations read 0 (R5, R6, R186, R314). -/
def fwMask (n x : Nat) : Nat :=
  if n = 0 then x &&& 0x2B6DB6DB6 else bits x 56 8 * 2 ^ 56 + bits x 12 4 * 2 ^ 12 + bits x 8 1 * 2 ^ 8 + bits x 0 5
/-- A port's feature words: those of its first link up (R314). -/
def portFw (p : Port) (n : Nat) : Nat :=
  fwMask n <| match [0, 1, 2, 3].find? (fun l => (p.links.get Link.down l).up) with
  | some l => if n = 0 then (p.links.get Link.down l).fw0 else (p.links.get Link.down l).fw1
  | none => 0
/-- The largest payload of a request to a destination: what the far side of its port accepts, at most 256 bytes (R310, R314, R315). -/
def payloadMax (s : State) (dest : Nat) : Nat :=
  match livePort s dest with
  | some p => 2 ^ Nat.max 6 (Nat.min 8 (bits (portFw (s.fabric.ports.get Port.reset p) 1) 12 4))
  | none => 256
/-- `n` bytes to or from a destination go in requests of the largest payload, each with its response (R311, R315). -/
def State.exchangeTo (s : State) (dest n : Nat) : State :=
  let m := payloadMax s dest
  s.exchangeN (farBase dest) ((n + m - 1) / m)
/-- The same, of a global address that goes over the fabric. -/
def State.exchangeBytes (s : State) (ga n : Nat) : State :=
  match destOf ga with
  | some d => s.exchangeTo d n
  | none => s

end Sys2Proof.Machine
end

