-- ==== Sys2Proof/Machine/Xlate.lean ====
section
/-!
DEFINITION. Where an address leads: the on-die window, the shelf window and the page tables (R80, R275 to R281, R296).
Translation is a function of the state that tries the TLBs and then walks; it changes nothing.
-/

namespace Sys2Proof.Machine

open Sys2Proof

/-- What an access wants of a page (R280). -/
inductive AccKind where
  | read | write | atomic | fetch
  deriving DecidableEq, Repr

/-- Why a translation fails (R280, R281): `lost` is a lost shelf allocation (R299), `window` an offset that names no
granted memory (R80). -/
inductive XFail where
  | window | invalid | format | grant | perm
  | poison (line lvl idx : Nat) (marked : Bool)
  | lost (gen peer : Nat)
  deriving DecidableEq, Repr

/-- A translation: the global address, the class, whether accesses are checked, the leaf's mode and threshold, the page,
the mirror's address and the generation of a shelf allocation, the table lines it came from. -/
structure Xl where
  ga : Nat
  cls : Nat
  chk : Bool := false
  mode : Nat := 0
  thr : Nat := 0
  page : Nat := 0
  size : Nat := 0
  leaf : Nat := 0
  flags : Nat := 0
  lines : List Nat := []
  mirror : Option Nat := none
  gen : Nat := 0
  deriving DecidableEq, Repr

def windowBase : Nat := 0x01FFFF0000000000
def shelfBase : Nat := 0x01FF000000000000
def inWindow (va : Nat) : Bool := decide (windowBase ≤ va ∧ va < 2 ^ 57)

/-- A frame or table of `n` bytes lies in granted extents and in no hole (R276). -/
def PartCfg.granted (p : PartCfg) (lpa n : Nat) : Bool :=
  p.extents.contains (lpa / 2 ^ 30) && p.extents.contains ((lpa + n - 1) / 2 ^ 30) &&
  (lpaClass lpa).isSome && lpaClass (lpa + n - 1) == lpaClass lpa

/-- The ingress check of a peer module, or at the host's link (R318, R345), which their own tables decide (DESIGN CHOICE, log
entry 33). -/
def peerTakes (s : State) (part ga : Nat) : Bool := Config.peerTakes s.tick (s.part part).cfg.tenant (ga / 2 ^ 30)
/-- A peer or the host refuses the access at its ingress. -/
def refused (s : State) (part : Nat) (x : Xl) : Bool := (x.cls == 6 || x.cls == 7) && !peerTakes s part x.ga
/-- The destination of an access is unreachable (R313). -/
def unreachable (s : State) (ga : Nat) : Bool := (destOf ga).any s.fabric.unreach.contains
/-- No port leads to the destination of an access, or its stack retrains: it waits (R313, R334). -/
def held (s : State) (ga : Nat) : Bool := stackPaused s ga || (destOf ga).any fun d => (livePort s d).isNone
/-- The peer-unreachable fault (R189, R313). -/
def goneCause (va : Nat) : Cause := { code := 0x34, addr := va }

/-- Which memory an offset of the window names for a core (R80), granted or not: class and unit. -/
def windowPlace (c off : Nat) : Option (Nat × Nat) :=
  if off < scratchSize then some (coreBase c + off, 0)
  else if 0x1000000 ≤ off ∧ off < 0x1800000 then some (cluBase (cluOf c) + (off - 0x1000000), 1)
  else if 0x4000000 ≤ off ∧ off < 0x8000000 then some (dieBase (dieOf c) + (off - 0x4000000), 2)
  else none
/-- The window (R80, R276): core scratchpad in its linear view, cluster and die units by the grant of the partition stamped on
the request (R295).  The scratchpads are the 512 cores'; a housekeeping core has none (R14, R254). -/
def windowXl (s : State) (p c off : Nat) : Except XFail Xl :=
  if c ≥ 512 then .error .window else
  let cfg := (s.part p).cfg
  match windowPlace c off with
  | some (ga, 0) => .ok { ga := ga, cls := 0 }
  | some (ga, 1) =>
    if cfg.cluUnits.contains (cluOf c, (off - 0x1000000) / 2 ^ 20) then .ok { ga := ga, cls := 1, chk := true } else .error .window
  | some (ga, _) =>
    if cfg.dieUnits.contains (dieOf c, (off - 0x4000000) / 2 ^ 22) then .ok { ga := ga, cls := 2, chk := true } else .error .window
  | none => .error .window

/-- The fabric destination of a peer number, of a kind of R294. -/
def PartCfg.dest (p : PartCfg) (kind peer : Nat) : Option Nat :=
  match p.peers.find peer with
  | .some (k, d) => if k = kind then .some d else .none
  | .none => .none

/-- The shelf window (R296 to R299). -/
def shelfXl (s : State) (p va : Nat) : Except XFail Xl :=
  match (s.part p).shelf.find? (fun a => decide (a.base ≤ va ∧ va < a.base + a.size)) with
  | none => .error .invalid
  | some a =>
    if a.state = 2 then .error (.lost a.gen a.peer1)
    else
      let at_ := fun peer => farBase (((s.part p).cfg.dest 2 peer).getD 0) + a.saddr + (va - a.base)
      .ok { ga := at_ a.peer1, cls := 5, mirror := if a.state = 0 then a.peer2.map at_ else none, gen := a.gen,
            page := va / 2 ^ 21 * 2 ^ 21, size := 2 ^ 21 }

/-- Page size and table size of a level (R277), and the lowest VA bit its index takes. -/
def pageBits (lvl : Nat) : Nat := match lvl with | 0 => 16 | 1 => 21 | 2 => 30 | _ => 43
def indexBits (lvl : Nat) : Nat := match lvl with | 0 => 5 | 1 => 9 | 2 => 13 | _ => 14
def tableSize (lvl : Nat) : Nat := 8 * 2 ^ indexBits lvl
def entryAt (lvl table va : Nat) : Nat := table + 8 * bits va (pageBits lvl) (indexBits lvl)

/-- A leaf's reserved bits (R278). -/
def leafReserved (lvl e : Nat) : Bool :=
  bits e 48 4 != 0 || bits e 16 (pageBits lvl - 16) != 0 || (bits e 8 2 != 3 && bits e 12 4 != 0) || bits e 10 2 != 0 ||
  bits e 7 1 != 0
/-- A pointer's reserved bits: the next table's alignment is its size (R277, R278). -/
def nextReserved (lvl e : Nat) : Bool :=
  bits e 48 16 != 0 || bits e 2 6 != 0 || bits e 0 48 / 256 * 256 % tableSize (lvl - 1) != 0

/-- The four-level walk of R280: the leaf with its level, its LPA and the lines read. -/
def walkAt (s : State) (cfg : PartCfg) (die va : Nat) : Nat → Nat → List Nat → Except XFail (Nat × Nat × Nat × List Nat)
  | lvl, table, lines =>
    let ea := entryAt lvl table va
    let line := ea / 64
    let e := readNat s.mem 8 ea
    let marked := (s.walkPoison.get [] die).contains line
    if marked || s.poisoned line then .error (.poison (64 * line) lvl (ea / 8 % 8) marked)
    else if !bit e 0 then .error .invalid
    else if bit e 1 then
      if lvl ≥ 3 || leafReserved lvl e then .error .format else .ok (lvl, ea, e, line :: lines)
    else match lvl with
      | 0 => .error .format
      | l + 1 =>
        if nextReserved (l + 1) e then .error .format
        else
          let next := bits e 8 40 * 256
          if !(cfg.granted next (tableSize l) && lpaClass next == some 3) then .error .grant
          else walkAt s cfg die va l next (line :: lines)

/-- An LPA of no memory of this module's map; the holes of the HBM4 windows are left to the grant (R275, R276). -/
def noMemory (lpa : Nat) : Bool := (lpaClass lpa).isNone && decide (12 * 2 ^ 36 ≤ lpa)
/-- A leaf that breaks R279. -/
def malformed (s : State) (p e : Nat) : Bool :=
  let mode := bits e 8 2
  let peer := bits e 52 12
  let frame := bits e 16 32 * 2 ^ 16
  (mode == 0 && peer != 0) || (peer == 0 && noMemory frame) || (mode == 1 && peer == 0) || (mode == 2 && (peer == 0 || lpaClass frame != some 3)) ||
  (bit e 6 && !((mode == 0 || mode == 3) && peer == 0 && lpaClass frame == some 3 && s.hasFeat p 1))

/-- The rights test of R280 on a leaf's low bits. -/
def allowed (flags : Nat) (k : AccKind) (lvl : Nat) : Bool :=
  (match k with
    | .read => bit flags 2 | .write => bit flags 3 | .atomic => bit flags 2 && bit flags 3 | .fetch => bit flags 4) &&
  (lvl != 0 || bit flags 5)

/-- The first byte of the second tier's range, and the most that the tier holds (R16, R275, R352). -/
def tierBase : Nat := 0x200000000000
def tierBytes : Nat := 32768 * 10 ^ 9
/-- The CXL port whose expander a second-tier byte lies in: the expanders stand in port order from the start of the range. -/
def expanderOf (f : Flash) (lpa : Nat) : Option Nat :=
  let at_ := (lpa - tierBase) / 2 ^ 30
  let base := fun (p : Nat) => (f.exps.take p).sum
  if lpaClass lpa != some 4 || decide (lpa - tierBase ≥ tierBytes) then none
  else (List.range 4).find? fun p => decide (base p ≤ at_ ∧ at_ < base (p + 1))
/-- A second-tier byte that no trained expander holds (R352). -/
def expHole (s : State) (lpa : Nat) : Bool :=
  lpaClass lpa == some 4 && !((expanderOf s.flash lpa).any fun p => !s.host.extLost.contains p)
/-- A table that holds a leaf of access mode 2 or 3 is doubled: both its halves lie in granted local HBM4 (R277). -/
def doubledOk (cfg : PartCfg) (lvl leaf : Nat) : Bool :=
  let t := tableSize lvl
  cfg.granted (leaf / t * t) (2 * t) && lpaClass (leaf / t * t) == some 3
/-- The translation a leaf gives (R277, R279, R280): whole, before the rights test; a doubled table whose second half the device may
not use fails like a table outside the grant (DEDUCED, log entry 62). -/
def leafXl (s : State) (p va lvl leaf e : Nat) (lines : List Nat) : Except XFail Xl :=
  if malformed s p e then .error .format
  else
    let cfg := (s.part p).cfg
    let mode := bits e 8 2
    let peer := bits e 52 12
    let n := 2 ^ pageBits lvl
    let frame := bits e 16 32 * 2 ^ 16
    let local_ := peer == 0 || mode == 2
    if (decide (mode ≥ 2) && !doubledOk cfg lvl leaf) ||
        (local_ && (!cfg.granted frame n || expHole s frame || expHole s (frame + n - 1))) || (peer != 0 && (cfg.dest 1 peer).isNone) then .error .grant
    else
      let off := frame + va % n
      let ga := if local_ then off else farBase ((cfg.dest 1 peer).getD 0) + off
      .ok { ga := ga, cls := classOf false ga, chk := bit e 6, mode := mode, thr := bits e 12 4, page := va / n * n,
            size := n, leaf := leaf, flags := bits e 0 16, lines := lines }

/-- A walk from the root (R280, R288). -/
def walk (s : State) (p die va : Nat) : Except XFail Xl :=
  if !(s.part p).tcbOk then .error .format
  else match walkAt s (s.part p).cfg die va 3 (s.part p).root [] with
    | .error f => .error f
    | .ok (lvl, leaf, e, lines) => leafXl s p va lvl leaf e lines

/-- A TLB entry as a translation (R282, R296). -/
def TlbE.xl (e : TlbE) (va : Nat) : Xl :=
  let off := va - e.va
  let ga := e.ga + off
  { ga := ga, cls := classOf e.shelf ga, chk := bit e.flags 6, mode := bits e.flags 8 2, thr := bits e.flags 12 4, page := e.va,
    size := e.size, leaf := e.leaf, flags := e.flags, lines := e.lines, mirror := e.mirror.map (· + off), gen := e.gen }
def findTlb (p va : Nat) (l : List TlbE) : Option TlbE :=
  l.find? fun e => e.part == p && decide (e.va ≤ va ∧ va < e.va + e.size)
/-- A translation as a TLB entry: of the shelf window, a 2 MiB page of its allocation. -/
def Xl.tlb (x : Xl) (p va : Nat) : TlbE :=
  { part := p, va := x.page, size := x.size, ga := x.ga - (va - x.page), flags := x.flags, lines := x.lines, leaf := x.leaf,
    count := 0, shelf := x.cls == 5, gen := x.gen, mirror := x.mirror.map (· - (va - x.page)) }

/-- The TLB entry that translates an address: of the core's TLB, then of its cluster's (R282). -/
def tlbHit (s : State) (p c va : Nat) : Option TlbE :=
  match findTlb p va (s.core c).tlb with
  | some e => some e
  | none => findTlb p va (s.cluTlb.get [] (cluOf c))
/-- Bytes that Kloty maps around the TCB: the HBM4 of a stack is a whole number of such frames (R16), so that every TCB has one. -/
def kmapSize : Nat := 2 ^ 15
/-- Kloty's mapping of the frame that holds the TCB, for levels S and F, which the tables do not hold; the whole frame lies in the grant
and in no hole (R276, R288; DESIGN CHOICE, log entry 5). -/
def kmapXl (cfg : PartCfg) (va : Nat) : Option Xl :=
  let frame := cfg.tcb / kmapSize * kmapSize
  if cfg.kmap ≠ 0 ∧ cfg.kmap ≤ va ∧ va < cfg.kmap + kmapSize ∧ cfg.granted frame kmapSize = true ∧ lpaClass frame = some 3 then
    some { ga := frame + (va - cfg.kmap), cls := 3, page := cfg.kmap, size := kmapSize, flags := 0x0F }
  else none
/-- Translation of an address below the window: TLBs, then the shelf table, or Kloty's mapping, or the walker of the die (R282, R288,
R296). -/
def pagedXl (s : State) (p c va : Nat) : Except XFail Xl :=
  match tlbHit s p c va with
  | some e => .ok (e.xl va)
  | none =>
    if va ≥ shelfBase then shelfXl s p va
    else match kmapXl (s.part p).cfg va with
      | some x => .ok x
      | none => walk s p (dieOf c) va

/-- Translation of a virtual address for an access at a level, of the partition stamped on it and the core it comes from (R80,
R280, R295, R296). -/
def xlateP (s : State) (p c lvl : Nat) (k : AccKind) (va : Nat) : Except XFail Xl :=
  if inWindow va then windowXl s p c (va - windowBase)
  else if va ≥ shelfBase + 2 ^ 40 then .error .invalid
  else
    match pagedXl s p c va with
    | .error f => .error f
    | .ok x => if va ≥ shelfBase ∨ allowed x.flags k lvl then .ok x else .error .perm
/-- Translation for an access that a core makes now. -/
def xlate (s : State) (c lvl : Nat) (k : AccKind) (va : Nat) : Except XFail Xl := xlateP s (s.partOf c) c lvl k va

/-- Table lines on the path to an address, as far as the tables can be read. -/
def pathLines (s : State) (va : Nat) : Nat → Nat → List Nat
  | lvl, table =>
    let ea := entryAt lvl table va
    let e := readNat s.mem 8 ea
    (ea / 64) :: (match lvl with
      | 0 => []
      | l + 1 => if s.poisoned (ea / 64) || !bit e 0 || bit e 1 then [] else pathLines s va l (bits e 8 40 * 256))
/-- A walk for an address would wait for a stack that retrains (R283, R334). -/
def walkPaused (s : State) (p c va : Nat) : Bool :=
  decide (va < shelfBase) && (tlbHit s p c va).isNone && (kmapXl (s.part p).cfg va).isNone && (s.part p).tcbOk && s.hbmStacks.any (·.2.paused) &&
  (pathLines s va 3 (s.part p).root).any fun l => stackPaused s (64 * l)

/-- The first address of a range in each 64 KiB page that it touches. -/
def pageStarts (va n : Nat) : List Nat :=
  if n = 0 then []
  else (List.range ((va % 2 ^ 16 + n + 2 ^ 16 - 1) / 2 ^ 16)).map fun j => if j = 0 then va else (va / 2 ^ 16 + j) * 2 ^ 16
/-- An access of a core to an address would wait: a stack on its way retrains, or no port leads there (R313, R334). -/
def waitsAt (s : State) (p c va : Nat) : Bool :=
  walkPaused s p c va || (!inWindow va && match pagedXl s p c va with
    | .ok x => held s x.ga && !unreachable s x.ga
    | .error _ => false)
/-- An access to one of `n` bytes would wait. -/
def waitsIn (s : State) (p c va n : Nat) : Bool :=
  (List.range (n / 2 ^ 16 + 2)).any fun j => waitsAt s p c (Nat.min (va + j * 2 ^ 16) (va + n - 1))

/-- Which memory a 57-bit address names by itself, without translation (R80): 0 core, 1 cluster, 2 die scratchpad,
3 paged or shelf; none for a window offset that names no memory or none granted. -/
def place (s : State) (c va : Nat) : Option Nat :=
  if inWindow va then
    match windowXl s (s.partOf c) c (va - windowBase) with
    | .ok x => some x.cls
    | .error _ => none
  else some 3

/-- `n` bytes from a virtual address lie in the core scratchpad part of the window. -/
def inScratch (va n : Nat) : Bool := decide (windowBase ≤ va ∧ va + n ≤ windowBase + scratchSize)

/-- Global addresses of `n` bytes of the core scratchpad in a view; none is the allocation-format fault (R85). -/
def scratchGas (swz : Bool) (zmap c : Nat) : Nat → Nat → Option (List Nat)
  | 0, _ => some []
  | n + 1, va =>
    match (if swz then physOff zmap (va - windowBase) else some (va - windowBase)), scratchGas swz zmap c n (va + 1) with
    | some o, some rest => some ((coreBase c + o) :: rest)
    | _, _ => none

end Sys2Proof.Machine
end

