-- ==== Sys2Proof/Machine/Tlb.lean ====
section
/-!
DEFINITION. Writes at their endpoint and by the device; the TLBs and what hangs on them (R282 to R290, R298): the supervisor request
ring, counter words, entries loaded, replaced and dropped, poisoned table lines.
-/

namespace Sys2Proof.Machine

open Sys2Proof

/-! ### Writes by the device (R281, R298, R325) -/

/-- A write at its endpoint, copied to the second switch of a mirrored allocation, with a request and a response of its own, before it
counts (R298, R311). -/
def writeAt (s : State) (x : Xl) (pairs : List (Nat × Byte)) (rel : Option Rel) : State :=
  let s := s.store pairs rel
  match x.mirror with
  | some m => (s.store (pairs.map fun b => (m + (b.1 - x.ga), b.2)) none).exchange m
  | none => s
/-- Why the device cannot write: the memory does not take the write now, or the address does not translate. -/
inductive DevFail where
  | busy
  | xl (f : XFail)
  | refused (ga : Nat)
  deriving DecidableEq, Repr
/-- Memory takes no write of these bytes now: its stack retrains or a range of it is busy (R96, R334), no live port leads there
(R313), or the write covers part of a poisoned line, which it would consume (R325; DESIGN CHOICE, log entry 63). -/
def refuses (s : State) (ga : Nat) (bytes : List Byte) : Bool :=
  held s ga || nmBusy s (ga / 64) || nmBusy s ((ga + bytes.length - 1) / 64) || unreachable s ga || !(partLines s (cells ga bytes)).isEmpty

/-! ### Counter words (R285) -/

/-- Level of a page by its size, as the SIZE code of a ring entry. -/
def sizeCode (size : Nat) : Nat := if size ≤ 2 ^ 16 then 0 else if size = 2 ^ 21 then 1 else 2
def TlbE.counted (e : TlbE) : Bool := bits e.flags 8 2 == 3
/-- The 32 bytes of a ring entry (R286). -/
def ringBytes (kind size core count va info : Nat) : List Byte :=
  toBytes 1 kind ++ toBytes 1 size ++ toBytes 2 (core % 512) ++ toBytes 4 count ++ toBytes 8 va ++ toBytes 8 0 ++ toBytes 8 info
/-- How a migration request is posted: the state after it, and whether POSTED is set. -/
abbrev Poster := State → Nat → List Byte → State × Bool
/-- No request is posted for now: POSTED stays 0, and the next addition tries again (R285). -/
def noPost : Poster := fun s _ _ => (s, false)
/-- The counter word of an entry's leaf (R277). -/
def TlbE.counter (e : TlbE) : Nat := e.leaf + tableSize (sizeCode e.size)
/-- An entry's count is added to its leaf's counter word, which may post a migration request; a counter word that the partition
may not hold is left alone (R277), and the addition waits for a stack that retrains (R334). -/
def addCounterBy (post : Poster) (s : State) (core : Nat) (e : TlbE) : State :=
  let lvl := sizeCode e.size
  let ea := e.counter
  if !e.counted || e.count == 0 || !doubledOk (s.part e.part).cfg lvl e.leaf then s
  else if stackPaused s ea then { s with owed := s.owed ++ [.count core e] }
  else
    let w := readNat s.mem 8 ea
    let n := Nat.min (w % 2 ^ 32 + e.count) (2 ^ 32 - 1)
    let s := s.storeNat ea 8 (n + (bit w 32).toNat * 2 ^ 32) none
    if bit w 32 || decide (n < 2 ^ (bits e.flags 12 4 + 6)) then s
    else
      let r := post s e.part (ringBytes 1 lvl core n e.va 0)
      if r.2 then r.1.storeNat ea 8 (readNat r.1.mem 8 ea % 2 ^ 32 + 2 ^ 32) none else r.1

/-! ### Entries dropped (R282, R290) -/

/-- Entries of a list that a test drops, their counts added to the counter words. -/
def addCountersBy (post : Poster) (core : Nat) : State → List TlbE → State
  | s, [] => s
  | s, e :: rest => addCountersBy post core (addCounterBy post s core e) rest
/-- A core TLB without the entries that a test drops. -/
def dropCoreTlb (post : Poster) (f : TlbE → Bool) (s : State) (c : Nat) : State :=
  let gone := (s.core c).tlb.filter f
  if gone.isEmpty then s
  else (addCountersBy post c s gone).modCore c fun k => { k with tlb := k.tlb.filter fun e => !f e }
def dropCluTlb (post : Poster) (f : TlbE → Bool) (s : State) (k : Nat) : State :=
  let gone := (s.cluTlb.get [] k).filter f
  if gone.isEmpty then s
  else
    let s := addCountersBy post (8 * k) s gone
    { s with cluTlb := s.cluTlb.put [] k ((s.cluTlb.get [] k).filter fun e => !f e) }
/-- Drops entries in every core and cluster TLB of the dies a test names. -/
def dropTlbBy (post : Poster) (s : State) (dies : Nat → Bool) (f : TlbE → Bool) : State :=
  let s := ((s.cores.map (·.1)).filter fun c => dies (dieOf c)).foldl (dropCoreTlb post f) s
  ((s.cluTlb.map (·.1)).filter fun k => dies (k / 16)).foldl (dropCluTlb post f) s
/-- A walk of a die has read a poisoned table line (R290): it is marked, and the entries derived from it go. -/
def markLineBy (post : Poster) (s : State) (die line : Nat) : State :=
  let m := s.walkPoison.get [] die
  let s := if m.contains line then s else { s with walkPoison := s.walkPoison.put [] die (m ++ [line]) }
  dropTlbBy post s (· == die) fun e => e.lines.contains line
/-- The mark that a failed translation leaves. -/
def noteFailBy (post : Poster) (s : State) (c : Nat) (f : XFail) : State :=
  match f with
  | .poison line _ _ false => markLineBy post s (dieOf c) (line / 64)
  | _ => s

/-! ### Entries loaded, accesses counted (R282, R285) -/

/-- Two entries of one partition stand for one address. -/
def TlbE.same (e f : TlbE) : Bool := f.part == e.part && f.va == e.va
/-- Loads an entry into a core TLB of 256 entries; the oldest is replaced, and one of the same address, of whatever size.  Their counts
are added to their counter words (R285). -/
def fillCoreBy (post : Poster) (s : State) (c : Nat) (e : TlbE) : State :=
  let rest := (s.core c).tlb.filter fun f => !e.same f
  let out := if rest.length ≥ 256 then 1 else 0
  let gone := (s.core c).tlb.filter e.same ++ rest.take out
  addCountersBy post c (s.modCore c fun k => { k with tlb := rest.drop out ++ [e] }) gone
/-- An access through a mode 3 leaf counts in the entry that translated it (R285). -/
def countVaBy (post : Poster) (s : State) (p c va : Nat) (x : Xl) : State :=
  if x.mode != 3 || x.size == 0 then s
  else
    let s := if (findTlb p va (s.core c).tlb).isSome then s else fillCoreBy post s c (x.tlb p va)
    let one := fun (e : TlbE) => if e.part == p && decide (e.va ≤ va ∧ va < e.va + e.size) then { e with count := e.count + 1 } else e
    s.modCore c fun k => { k with tlb := k.tlb.map one }
/-- Where a device write to an address that the supervisor of a partition maps leads, by its control core's TLB.  A peer or the host that
refuses it fails it like a translation, after its request and the response (R311, R318, R345). -/
def devicePlace (s : State) (p va : Nat) (bytes : List Byte) : Except DevFail Xl :=
  let c := (s.part p).cfg.control
  if walkPaused s p c va then .error .busy
  else match xlateP s p c 1 .write va with
    | .error f => .error (.xl f)
    | .ok x =>
      if refuses s x.ga bytes then .error .busy
      else if refused s p x then .error (.refused x.ga)
      else .ok x
/-- The write at its place.  It counts in a page of access mode 3 (R285). -/
def devicePut (s : State) (x : Xl) (bytes : List Byte) : State := (writeAt s x (cells x.ga bytes) none).exchange x.ga
def deviceCount (post : Poster) (s : State) (p va : Nat) (x : Xl) : State := countVaBy post s p (s.part p).cfg.control va x
/-- What a device write leaves that cannot be made (R281, R290, R311). -/
def deviceFail (post : Poster) (s : State) (p : Nat) : DevFail → State
  | .busy => s
  | .xl f => noteFailBy post s (s.part p).cfg.control f
  | .refused ga => s.exchange ga

/-! ### The supervisor request ring (R281, R286, R288) -/

/-- A dword of the partition's translation control block. -/
def tcbWord (s : State) (p off : Nat) : Nat := readNat s.mem 8 ((s.part p).cfg.tcb + off)
/-- The ring has space for an entry. -/
def ringSpace (s : State) (p : Nat) : Bool :=
  (s.part p).tcbOk &&
  decide ((tcbWord s p 0x18 + 2 ^ 64 - tcbWord s p 0x20) % 2 ^ 64 < 2 ^ (s.part p).ringLen)
/-- Address of the entry that is posted next. -/
def ringEntry (s : State) (p : Nat) : Nat :=
  (s.part p).ringBase + 32 * (tcbWord s p 0x18 % 2 ^ (s.part p).ringLen)
/-- Posts an entry: its bytes, then RINGPROD, and then what its write has counted; or the state where it cannot. -/
def ringPostBy (post : Poster) (s : State) (p : Nat) (bytes : List Byte) : Except State State :=
  let va := ringEntry s p
  if !ringSpace s p || refuses s ((s.part p).cfg.tcb + 0x18) [0] then .error s
  else match devicePlace s p va bytes with
    | .error f => .error (deviceFail post s p f)
    | .ok x =>
      let s' := (devicePut s x bytes).storeNat ((s.part p).cfg.tcb + 0x18) 8 ((tcbWord s p 0x18 + 1) % 2 ^ 64) none
      .ok (deviceCount post s' p va x)
/-- Entries that were held are posted, the oldest first, as far as they can be (R281). -/
def postHeldBy (post : Poster) (p : Nat) : Nat → State → State
  | 0, s => s
  | n + 1, s =>
    match (s.part p).ringHeld with
    | [] => s
    | b :: rest =>
      match ringPostBy post (s.modPart p fun q => { q with ringHeld := rest }) p b with
      | .ok s' => postHeldBy post p n s'
      | .error s' => s'.modPart p fun q => { q with ringHeld := b :: q.ringHeld }
def ringFlushBy (post : Poster) (s : State) (p : Nat) : State := postHeldBy post p (s.part p).ringHeld.length s
/-- Kloty is told that a record or an entry is held (R281). -/
def notify (s : State) (p : Nat) : State := s.modPart p fun q => { q with notices := q.notices + 1 }
/-- Entries posted and held that the supervisor has not consumed. -/
def ringUsed (s : State) (p : Nat) : Nat :=
  (tcbWord s p 0x18 + 2 ^ 64 - tcbWord s p 0x20) % 2 ^ 64 + (s.part p).ringHeld.length
/-- The ring has room behind the entries held. -/
def ringRoom (s : State) (p : Nat) : Bool := (s.part p).tcbOk && decide (ringUsed s p < 2 ^ (s.part p).ringLen)
/-- The control block's stack retrains: the ring's counters can be neither read nor written (R334). -/
def tcbPaused (s : State) (p : Nat) : Bool := stackPaused s (s.part p).cfg.tcb
/-- Posts an entry behind those held; one that has room but cannot be written is held; none where it is dropped (R281, R286).  While
the control block cannot be read an entry is held (DESIGN CHOICE, log entry 80). -/
def ringPostOrHoldBy (post : Poster) (s : State) (p : Nat) (bytes : List Byte) : Option State :=
  let s := ringFlushBy post s p
  if !(tcbPaused s p && (s.part p).tcbOk) && !ringRoom s p then none
  else
    let hold := fun (s : State) => notify (s.modPart p fun q => { q with ringHeld := q.ringHeld ++ [bytes] }) p
    if tcbPaused s p || !(s.part p).ringHeld.isEmpty then some (hold s)
    else match ringPostBy post s p bytes with
      | .ok s' => some s'
      | .error s' => some (hold s')
/-- An entry that is dropped counts in RINGDROP, once its stack does not retrain (R334). -/
def ringDrop (s : State) (p : Nat) : State :=
  if tcbPaused s p then { s with owed := s.owed ++ [.drop p] }
  else s.storeNat ((s.part p).cfg.tcb + 0x28) 8 (Nat.min (tcbWord s p 0x28 + 1) (2 ^ 64 - 1)) none
/-- A migration request is posted or held, or dropped where the ring is full.  Its own write may take an entry out of a TLB whose count
makes another request due, and so on: no more than `n` of them follow one another. -/
def migrateN : Nat → Poster
  | 0 => noPost
  | n + 1 => fun s p bytes =>
    match ringPostOrHoldBy (migrateN n) s p bytes with
    | some s' => (s', true)
    | none => (ringDrop s p, false)
/-- More requests than one ring of 4,096 entries takes follow no addition (R288). -/
def migrate : Poster := migrateN 4097
def rawWrite (s : State) (p va : Nat) (bytes : List Byte) : Except DevFail State :=
  match devicePlace s p va bytes with
  | .error f => .error f
  | .ok x => .ok (deviceCount migrate (devicePut s x bytes) p va x)
def ringPost (s : State) (p : Nat) (bytes : List Byte) : Except State State := ringPostBy migrate s p bytes
def ringFlush (s : State) (p : Nat) : State := ringFlushBy migrate s p
def ringPostOrHold (s : State) (p : Nat) (bytes : List Byte) : Option State := ringPostOrHoldBy migrate s p bytes
def addCounter (s : State) (core : Nat) (e : TlbE) : State := addCounterBy migrate s core e
def addCounters (core : Nat) (s : State) (l : List TlbE) : State := addCountersBy migrate core s l
def dropTlb (s : State) (dies : Nat → Bool) (f : TlbE → Bool) : State := dropTlbBy migrate s dies f
def markLine (s : State) (die line : Nat) : State := markLineBy migrate s die line
def noteFail (s : State) (c : Nat) (f : XFail) : State := noteFailBy migrate s c f
def fillCore (s : State) (c : Nat) (e : TlbE) : State := fillCoreBy migrate s c e
def countVa (s : State) (p c va : Nat) (x : Xl) : State := countVaBy migrate s p c va x

/-- A device write: done, or the state where it cannot be made (R281, R290). -/
def deviceWrite (s : State) (p va : Nat) (bytes : List Byte) : Except State State :=
  match rawWrite s p va bytes with
  | .ok s' => .ok s'
  | .error f => .error (deviceFail migrate s p f)
/-- A device write that is lost where it cannot be made. -/
def tryWrite (s : State) (p va : Nat) (bytes : List Byte) : State :=
  match deviceWrite s p va bytes with
  | .ok s' => s'
  | .error s' => s'
/-- The device's write of a dword of a partition, which waits for memory that takes no request now (R313, R334). -/
def oweWord (s : State) (p va val : Nat) : State :=
  if waitsAt s p (s.part p).cfg.control va then { s with owed := s.owed ++ [.word p va val] } else tryWrite s p va (toBytes 8 val)
/-- What has waited. -/
def payOne (s : State) : Owed → State
  | .count core e => addCounter s core e
  | .drop p => ringDrop s p
  | .word p va val => oweWord s p va val
/-- What has waited is done, as far as memory takes it (R313, R334). -/
def payOwed (s : State) : State := s.owed.foldl payOne { s with owed := [] }
/-- An addition of a partition still waits. -/
def Owed.of (p : Nat) : Owed → Bool
  | .count _ e => e.part == p
  | .drop q => q == p
  | .word .. => false

/-! ### The cluster TLB (R282, R285) -/

/-- Cores of a partition in a cluster: its share of the cluster TLB is 512 entries for each. -/
def cluShare (s : State) (p k : Nat) : Nat := 512 * ((s.part p).cfg.cores.filter fun c => cluOf c == k).length
def fillClu (s : State) (k : Nat) (e : TlbE) : State :=
  let t := (s.cluTlb.get [] k).filter fun f => !e.same f
  let own := t.filter fun f => f.part == e.part
  let old := if own.length ≥ cluShare s e.part k then own.take 1 else []
  let gone := (s.cluTlb.get [] k).filter e.same ++ old
  addCounters (8 * k) { s with cluTlb := s.cluTlb.put [] k ((t.filter fun f => !old.contains f) ++ [e]) } gone
/-- An entry whose own count has reached its threshold (R285). -/
def overCount (e : TlbE) : Bool := e.counted && decide (e.count ≥ 2 ^ (bits e.flags 12 4 + 6))

/-! ### Causes of failed translations (R281) -/

/-- The deferred cause of a posted access whose translation fails (R189, R281). -/
def xfailCause (f : XFail) (va : Nat) : Cause :=
  match f with
  | .poison line lvl idx marked =>
    { code := 0x36, addr := va, info0 := line, info1 := lvl + (if marked then 0 else 256), info2 := idx }
  | .lost gen _ => { code := 0x33, addr := va, info0 := gen }
  | _ => { code := 0x31, addr := va }
/-- Bits 3:1 of a page request's INFO. -/
def xfailInfo (f : XFail) : Nat := match f with | .grant => 2 | .perm => 4 | _ => 8
/-- The SIZE code of a page request (R286): that of the leaf at which the translation fails; 64 KiB where there is none
(DESIGN CHOICE, log entry 32). -/
def failSize (s : State) (p c va : Nat) : Nat :=
  match tlbHit s p c va with
  | some e => sizeCode e.size
  | none => match walkAt s (s.part p).cfg (dieOf c) va 3 (s.part p).root [] with
    | .ok (lvl, _) => lvl
    | .error _ => 0

end Sys2Proof.Machine
end

