-- ==== Sys2Proof/Machine/Ops.lean ====
section
/-!
DEFINITION. The operations the meanings share: energy, asynchronous operations, the undo log, results becoming visible,
granule writes, activation of contexts, the end of a task, trap records, taking a cause and returning from one, privileged
register writes, segments, barriers and the race detector.
-/

namespace Sys2Proof.Machine

open Sys2Proof

/-! ### Energy (R338 to R341) -/

/-- The weights of R338 by gear and class. -/
def weight (gear cls : Nat) : Nat :=
  let row := match cls with
    | 0 => [1, 1, 3, 4] | 1 => [1, 1, 2, 3] | 2 => [6, 6, 18, 22] | 3 => [8, 8, 24, 29] | 4 => [14, 14, 42, 50]
    | 5 => [12, 12, 36, 43] | 6 => [500, 500, 1500, 1800] | 7 => [520, 520, 1560, 1870] | 8 => [330, 330, 1000, 1200]
    | 9 => [24, 24, 72, 86] | 10 => [40, 40, 40, 40] | 11 => [300, 300, 300, 300] | 12 => [1, 1, 2, 3]
    | _ => [18000, 30000, 85000, 120000]
  row.getD gear 0

/-- One charge (R341). -/
def Ctx.charge (w : Nat) (k : Ctx) : Ctx :=
  if k.energy + w > 2 ^ 48 - 1 then { k with energy := 2 ^ 48 - 1, ensat := true } else { k with energy := k.energy + w }
/-- A charge to a context, which also counts towards its partition's measured power (R335). -/
def State.charge (s : State) (c x w : Nat) : State :=
  if w = 0 ∨ c ≥ 512 then s
  else (s.modCtx c x (Ctx.charge w)).modPart (s.partOf c) fun p => { p with charged := p.charged + w }

/-! ### Asynchronous operations -/

/-- Starts an asynchronous operation under the next name. -/
def State.post (s : State) (a : Async) : State := 
  { s with
    ops := s.ops ++ [{ a with id := s.nextId, ord := if a.ord = 0 then s.nextId else a.ord, grants := [] }]
    nextId := s.nextId + 1 }
def State.findOp (s : State) (id : Nat) : Option Async := s.ops.find? (fun a => a.id == id)
def State.dropOp (s : State) (id : Nat) : State := { s with ops := s.ops.filter fun a => a.id != id }
/-- An operation as it now stands, the grants of its unit included. -/
def State.putOp (s : State) (a : Async) : State := { s with ops := s.ops.map fun b => if b.id = a.id then a else b }
/-- An operation that has moved on: its next transfer unit has no grant yet (R19). -/
def State.setOp (s : State) (a : Async) : State := s.putOp { a with grants := [] }

/-- An operation of a context with what R262 says of its access; `after` names the operations that must be done before it: an
access to peer or shelf memory is done once its target has acknowledged it, which is when it has performed there (R319). -/
def mkOp (s : State) (c x : Nat) (at_ : Where) (after : List Nat) (k : OpK) : Async :=
  let q := s.ctx c x
  { id := 0, ord := 0, core := c, ctx := x, task := q.info.task, seq := q.info.seq, part := s.partOf c, level := q.level,
    j := (s.core c).j, at_ := at_, after := after, unacked := false, dst := 0, mir := none, uncounted := false, grants := [],
    page := (0, 0), kind := k }

/-- What an operation waits for has been done. -/
def State.isDone (s : State) (id : Nat) : Bool := !(s.ops.any fun a => a.id == id)
def State.afterDone (s : State) (a : Async) : Bool := a.after.all s.isDone

/-- The operations of a context. -/
def State.mine (s : State) (c x : Nat) : List Async := s.ops.filter fun a => a.core == c && a.ctx == x
/-- Copies, and stamps of the own scratchpad: issued inside a segment, a rewind drops them and their bundles issue them again (R51). -/
def OpK.isCopy : OpK → Bool
  | .copy .. => true | .mcast .. => true | .ownStamp .. => true | _ => false
/-- Stores, stamps and atomics: the accesses that a FENCE orders on its earlier side (R95). -/
def OpK.isAccess : OpK → Bool
  | .store .. => true | .stamp .. => true | .ownStamp .. => true | .atom .. => true | _ => false
/-- Virtual addresses an access of R94 touches. -/
def OpK.granules : OpK → List Nat
  | .store bytes => (bytes.map fun b => b.1 / 64).eraseDups
  | .stamp va _ _ => [va / 64]
  | .atom _ va _ _ _ _ _ _ => [va / 64]
  | _ => []

/-- A granule's name for ordering: where it leads if it translates. -/
def granKey (s : State) (c lvl g : Nat) : Nat :=
  match xlate s c lvl .read (64 * g) with
  | .ok x => 2 * (x.ga / 64)
  | .error _ => 2 * g + 1

/-- Earlier accesses of the context to one of these granules (R94). -/
def sameGranule (s : State) (c x : Nat) (gs : List Nat) : List Nat :=
  let lvl := (s.ctx c x).level
  let keys := gs.map (granKey s c lvl)
  ((s.mine c x).filter fun a => a.kind.granules.any fun g => keys.contains (granKey s c lvl g)).map (·.id)
/-- What the fences before an access make it wait for (R95, R183); the narrowest scope binds reads only. -/
def fenced (s : State) (c x : Nat) (reads : Bool) : List Nat :=
  ((s.ctx c x).fences.filter fun f => f.1 > 0 || reads).flatMap fun f => f.2.2
/-- NMFENCEs hold later accesses to HBM4 (R96). -/
def nmFenced (s : State) (c x : Nat) (vas : List Nat) : List Nat :=
  let lvl := (s.ctx c x).level
  let hbm := fun va => match xlate s c lvl .read va with | .ok t => t.cls == 3 | .error _ => true
  if (s.ctx c x).nmFences.isEmpty || !(vas.any hbm) then [] else (s.ctx c x).nmFences
/-- An operation in progress with accesses that a release waits for; a stamp that a completion word still owes is one. -/
def OpK.accesses : OpK → Bool
  | .arrive _ _ _ _ st => st.isSome
  | .signal .. => false
  | .beat .. => false | .credit .. => false | .walk .. => false | _ => true
/-- Everything the context has in progress whose accesses a release waits for (R89, R91, R319). -/
def allBefore (s : State) (c x : Nat) : List Nat := ((s.mine c x).filter fun a => a.kind.accesses).map (·.id)

/-! ### Deferred causes (R105) -/

/-- A deferred cause of a context, about an access (R262). -/
def defer (s : State) (c x : Nat) (q : Cause) (at_ : Where) : State :=
  let k := s.ctx c x
  let r : Rec :=
    { cause := q, cls := 1, lvl := k.level, ctx := x, core := c, part := s.partOf c, ended := false, at_ := at_, behind := false }
  s.setCtx c x { k with deferred := k.deferred ++ [r] }
/-- The part that issued an operation is out in an image (R269). -/
def State.isOut (s : State) (a : Async) : Bool :=
  s.tasks.any fun t => t.id == a.task && t.parts.any fun p => p.core == a.core && p.ctx == a.ctx && p.state == 2
/-- A change of the issuing context in the newest image of its part: saves stand newest first. -/
def modImage (a : Async) (f : Ctx → Ctx) : List Image → List Image
  | [] => []
  | im :: rest =>
    let k := im.ctxs.get Ctx.reset a.ctx
    if im.core = a.core ∧ k.info.task = a.task then { im with ctxs := im.ctxs.set a.ctx (f k) } :: rest else im :: modImage a f rest
/-- A report about a part that is out is kept in its newest image (R270). -/
def pendInImage (a : Async) (r : Rec) (l : List Image) : List Image := modImage a (fun k => { k with deferred := k.deferred ++ [r] }) l
/-- A deferred cause is reported to a context that still holds the part, kept with an image that is out, or recorded as ENDED
(R270, R307). -/
def State.report (s : State) (a : Async) (q : Cause) : State :=
  let k := s.ctx a.core a.ctx
  let r : Rec :=
    { cause := q, cls := 1, lvl := a.level, ctx := a.ctx, core := a.core, part := a.part, ended := false, at_ := a.at_, behind := false }
  if k.holds && k.info.task == a.task then s.modCtx a.core a.ctx fun k => { k with deferred := k.deferred ++ [r] }
  else if s.isOut a then { s with images := pendInImage a r s.images }
  else
    let ts := s.tasks.map fun t =>
      if t.id = a.task then { t with failed := true, causes := t.causes ++ [{ r with ended := true }] } else t
    { s with tasks := ts }

/-! ### The undo log (R49) -/

def Segment.logged (g : Segment) (kind unit : Nat) : Bool := g.undo.any fun u => u.kind == kind && u.unit == unit
/-- The bits of a unit now. -/
def unitImage (s : State) (c kind unit : Nat) : Nat :=
  match kind with
  | 0 => readNat s.mem 64 (64 * unit)
  | 1 => elem 512 ((s.core c).acc.get 0 (unit / 4)).toNat (unit % 4)
  | _ => elem 512 ((s.core c).os.get 0 (unit / 2)).toNat (unit % 2)
/-- The pre-image of a unit at its first write inside an open segment. -/
def logUnit (s : State) (c x kind : Nat) (unit : Nat) : State :=
  match (s.ctx c x).seg with
  | none => s
  | some g =>
    if g.logged kind unit then s
    else
      let g := { g with
        undo := ⟨kind, unit, unitImage s c kind unit⟩ :: g.undo,
        units := if g.units.contains (kind, unit) then g.units else (kind, unit) :: g.units }
      s.modCtx c x fun k => { k with seg := some g }
def logUnits (s : State) (c x kind : Nat) : List Nat → State
  | [] => s
  | u :: us => logUnits (logUnit s c x kind u) c x kind us
/-- The units that bytes of the core's own scratchpad lie in. -/
def unitsOf (bytes : List (Nat × Byte)) : List Nat := (bytes.map fun b => b.1 / 64).eraseDups
/-- Space for units not yet in the log is taken at issue: none when it would pass 1,024 units (R49). -/
def reserve (s : State) (c x : Nat) (us : List (Nat × Nat)) : Option State :=
  match (s.ctx c x).seg with
  | none => some s
  | some g =>
    let new := (us.eraseDups).filter fun u => !g.units.contains u
    if g.units.length + new.length > 1024 then none
    else some (s.modCtx c x fun k => { k with seg := some { g with units := g.units ++ new } })

/-! ### Consumption of poison at a write (R325, R326) -/

/-- Storage code and INFO0 of R328 for a byte address. -/
def storageOf (ga : Nat) : Nat × Nat :=
  if ga ≥ 2 ^ 96 then (9, 0) else if ga ≥ 2 ^ 72 then (2, 0x4000000 + ga % 2 ^ 26) else if ga ≥ 2 ^ 71 then (1, 0x1000000 + ga % 2 ^ 23)
  else if ga ≥ 2 ^ 70 then (0, ga % 2 ^ 22)
  else if ga ≥ 2 ^ 48 then (10, ga % 2 ^ 48)
  else (match lpaClass ga with | some 4 => 4 | some 7 => 5 | _ => 3, ga)
/-- Virtual address of the line in which an access at `va` meets poison; 0 for a register or a received beat (R328). -/
def lineVa (line va : Nat) : Nat :=
  if line ≥ 2 ^ 90 then 0 else if isCoreGa (64 * line) then windowBase + 64 * line % 2 ^ 22 else va / 64 * 64
/-- The memory-poison fault of a line (R328). -/
def poisonCause (line va : Nat) (shelf again : Bool) (slot : Nat) : Cause :=
  let p := storageOf (64 * line)
  { code := 0x37, slot := slot, addr := lineVa line va, info0 := p.2, info1 := if shelf then 11 else p.1, info2 := if again then 1 else 0,
    line := some line }

/-! ### Segments (R47 to R51) -/

/-- A latch row lies in a latch that these claims hold (R224, R230). -/
def holdsRow (claims : KV Claim) (row : Nat) : Bool := (claims.find (128 + row / 128)).isSome
/-- Opens a segment (R49): the shadow of all registers, of the context's own latches and of its claims. -/
def openSegment (s : State) (c x : Nat) : State :=
  let k := s.core c
  let own := k.claims.filter fun e => e.2.owner == x
  s.modCtx c x fun q => { q with
    seg := some
     { shadow := q.regs, latches := k.lt.filter fun e => holdsRow own e.1, claims := own, undo := [], units := [], beats := [],
       chain := [], residue := 0, reissue := false, firstId := s.nextId } }

/-- Credits of beats go back to their senders (R44, R50), for a partition. -/
def returnCreditsOf (part : Nat) (s : State) (c x : Nat) : List Beat → State
  | [] => s
  | b :: bs =>
    let a := { mkOp s c x ⟨0, 0, 15, 0⟩ [] (.credit b.sender b.sctx b.schan 1 b.stask) with part := part }
    returnCreditsOf part (s.post a) c x bs
def returnCredits (s : State) (c x : Nat) (l : List Beat) : State := returnCreditsOf (s.partOf c) s c x l

/-- The claim key of a unit: `64 * kind + unit`. -/
def claimKey (kind unit : Nat) : Nat := 64 * kind + unit
/-- The matrix unit that a result writes. -/
def Res.unit : Res → Option Nat
  | .os row _ => some (claimKey 0 (row / 64))
  | .acc row _ => some (claimKey 1 (row / 64))
  | .lt row _ => some (claimKey 2 (row / 128))
  | .zero kind unit _ => some (claimKey kind unit)
  | _ => none
/-- Claims of a context released; writes to the units still in flight are discarded (R223). -/
def dropUnits (s : State) (c x : Nat) (which : Nat × Claim → Bool) : State :=
  let gone := ((s.core c).claims.filter fun e => e.2.owner == x && which e).map (·.1)
  let s := s.modCore c fun k => { k with claims := k.claims.filter fun e => !gone.contains e.1 }
  s.modRegs c x fun r => { r with inflight := r.inflight.filter fun f => !(f.res.unit.any gone.contains) }

/-- Commit (R50): credits go back, marked units are released, shadow, log and retained data are discarded. -/
def commitSegment (s : State) (c x : Nat) : State :=
  match (s.ctx c x).seg with
  | none => s
  | some g =>
    let s := returnCredits s c x (g.beats.flatMap fun e => e.2)
    dropUnits (s.modCtx c x fun k => { k with seg := none }) c x fun e => e.2.mark

/-- One pre-image put back (R51); a write that monitors observe (R48), and that other segments' logs see where it changes a byte. -/
def undoOne (c : Nat) (s : State) (u : Undo) : State :=
  match u.kind with
  | 0 =>
    let bytes := cells (64 * u.unit) (toBytes 64 u.image)
    (s.storeRaw bytes none).patchLogs (bytes.filter fun b => s.mem.get 0 b.1 != b.2)
  | 1 => s.modCore c fun k =>
    let row := BitVec.ofNat 2048 (setBits (k.acc.get 0 (u.unit / 4)).toNat (512 * (u.unit % 4)) 512 u.image)
    { k with acc := k.acc.set (u.unit / 4) row }
  | _ => s.modCore c fun k =>
    let row := BitVec.ofNat 1024 (setBits (k.os.get 0 (u.unit / 2)).toNat (512 * (u.unit % 2)) 512 u.image)
    { k with os := k.os.set (u.unit / 2) row }

/-- A pending transfer of the shadow takes the data that has arrived since (R50). -/
def mergeXfer (live : List Xfer) (old : Xfer) : Xfer :=
  match live.find? (fun y => y.id == old.id) with
  | none => old
  | some y =>
    let grans := old.grans.map fun g =>
      match y.grans.find? (fun h => h.base == g.base) with
      | some h => { g with left := h.left, data := h.data }
      | none => g
    { old with dead := y.dead, grans := grans }

/-- Beats taken inside the segment go back to the heads of their queues (R51). -/
def putBack (q : KV (List Beat)) : KV (List Beat) → KV (List Beat)
  | [] => q
  | (ch, bs) :: rest => putBack (q.set ch (bs ++ q.get [] ch)) rest

def satCount (n : Nat) : Nat := Nat.min (n + 1) (2 ^ 32 - 1)

/-- The rewind of R51: the context's own latches go back, those of other contexts stay; copies issued inside the segment are issued
again with their bundles.  `line` joins the segment chain (R326), `residue` counts a residue failure (R327). -/
def rewind (s : State) (c x : Nat) (line : Option Nat) (residue : Bool) : State :=
  match (s.ctx c x).seg with
  | none => s
  | some g =>
    let live := (s.ctx c x).regs.xfers
    let kept := g.shadow.xfers.map (fun y => y.id)
    let dropped := (live.map fun y => y.id).filter fun i => !kept.contains i
    let again := fun (a : Async) => dropped.contains a.id ||
      (a.core == c && a.ctx == x && a.kind.isCopy && decide (a.id ≥ g.firstId))
    let s := { s with ops := s.ops.filter fun a => !again a }
    let s := g.undo.foldl (undoOne c) s
    let s := s.modCore c fun k =>
      let others := k.claims.filter fun e => e.2.owner != x
      { k with
        lt := g.latches.foldl (fun m e => m.set e.1 e.2) (k.lt.filter fun e => !holdsRow g.claims e.1)
        claims := others.foldr (fun e m => KV.set m e.1 e.2) g.claims
        ras := k.ras.set 1 (satCount (k.ras.get 0 1)) }
    let g' := { g with
      undo := [], units := [], beats := [], chain := line.toList ++ g.chain, residue := g.residue + residue.toNat,
      reissue := true }
    s.modCtx c x fun k => { k with
      regs := { g.shadow with xfers := g.shadow.xfers.map (mergeXfer live) },
      queues := putBack k.queues g.beats,
      status := if k.status = .frozen then .ready else k.status,
      dep := none,
      seg := some g' }

/-! ### Activation of contexts (R39) -/

/-- The first ready context in the cyclic order after the one most recently active. -/
def nextReady (k : Core) : Option Nat :=
  (([1, 2, 3, 4].map fun i => (k.last + i) % 4).find? fun x => decide ((k.ctxs.get Ctx.reset x).status = .ready))

/-- The loop buffer is empty (R121). -/
def evict (s : State) (c : Nat) : State := if (s.core c).pin.isNone then s else s.modCore c fun k => { k with pin := none }
/-- Makes a context active: a switch costs 2 cycles of the outgoing gear, charged to the incoming context (R39, R340), acts as a VJOIN
for the outgoing context's writes (R87) and evicts what is pinned (R121). -/
def activate (s : State) (c x : Nat) : State :=
  let k := s.core c
  let old := k.last
  let sw := old != x && (s.ctx c old).holds
  let s := if sw then s.charge c x (2 * weight (k.curOf old) 12) else s
  let s := if sw then (s.modRegs c old fun r => { r with vjoins := r.ltime :: r.vjoins }) else s
  let s := if old = x then s else evict s c
  s.modCore c fun k => { k with active := some x, last := x }
/-- A core with none active activates the next ready context. -/
def pickNext (s : State) (c : Nat) : State :=
  if (s.core c).active.isSome || (s.core c).halted then s
  else match nextReady (s.core c) with
    | some x => activate s c x
    | none => s
/-- The active context leaves the core. -/
def leave (s : State) (c x : Nat) : State :=
  if (s.core c).active = some x then pickNext (s.modCore c fun k => { k with active := none }) c else s
/-- Cycles that a core has spent with nothing to issue go to the context most recently active, unless it is empty, suspended, being
saved or loaded (R340, R361; DESIGN CHOICE, log entry 15). -/
def chargeIdle (s : State) (c : Nat) : State :=
  let k := s.core c
  let x := s.ctx c k.last
  if k.active.isSome || k.halted || !x.resident || x.busy || x.status == .suspended then s
  else { s.charge c k.last (Config.idleCycles s.tick * weight k.rails 12) with tick := s.tick + 1 }
/-- A context becomes ready, and from then on resident until it is empty (R361); a core that was idle is idle no more. -/
def makeReady (s : State) (c x : Nat) : State :=
  pickNext ((chargeIdle s c).modCtx c x fun k => { k with status := .ready, dep := none, resident := true }) c
/-- A context freezes on a dependence (R31, R32). -/
def freeze (s : State) (c x : Nat) (d : Dep) : State :=
  leave (s.modCtx c x fun k => { k with status := .frozen, dep := some d }) c x
def Dep.isIdle : Dep → Bool
  | .idle _ _ => true
  | _ => false
/-- Core cycles in 400 ns, by gear (R331). -/
def gearLimit (gear : Nat) : Nat := match gear with | 0 => 200 | 1 => 360 | 2 => 800 | _ => 960
/-- A core cycle's energy for those of a change of gear, so far as it goes, at the gear that is left (R340, R361; how many: DESIGN CHOICE,
log entry 15). -/
def gearPart (s : State) (c done : Nat) : Nat := Nat.min (Config.gearCycles s.tick) (gearLimit (s.core c).rails - done)
def chargeGear (s : State) (c x done : Nat) : State :=
  { s.charge c x (gearPart s c done * weight (s.core c).rails 12) with tick := s.tick + 1 }
/-- A context stops for which its core changes gear: the cycles so far are charged to it, and those until it goes on to none (R361). -/
def stopChange (s : State) (c x : Nat) : State :=
  match (s.core c).changing with
  | some (g, y, done) =>
    if y = x then (chargeGear s c x done).modCore c fun k => { k with changing := some (g, x, done + gearPart s c done) } else s
  | none => s
/-- A context is empty from now on: a change of gear is made for it no more (R361), and what it has pinned is evicted (R121). -/
def forget (s : State) (c x : Nat) : State :=
  match (s.core c).changing with
  | some (g, y, done) => evict (if y = x then s.modCore c fun k => { k with changing := some (g, 4, done) } else s) c
  | none => evict s c
/-- A context is suspended with a cause (R38, R259); what its `IDLE` waits for stays on record (R274).  Idle cycles up to here are
those of the context most recently active (R340). -/
def suspendCtx (s : State) (c x code : Nat) : State :=
  let s := stopChange (if (s.core c).last = x then chargeIdle s c else s) c x
  leave (s.modCtx c x fun k => { k with status := .suspended, suspCause := code, dep := k.dep.filter Dep.isIdle }) c x
/-- No core starts, resumes or loads anything while a checkpoint stands or after an emergency save (R343, R353). -/
def startsHeld (s : State) : Bool := s.power.emergency || s.host.ckst == 1
/-- A suspended context goes on: it becomes ready, or stands frozen in its `IDLE` again (R265, R274). -/
def goOn (s : State) (c x : Nat) : State :=
  if ((s.ctx c x).dep.filter Dep.isIdle).isSome then
    s.modCtx c x fun k => { k with status := .frozen, suspCause := 0, resident := true }
  else makeReady (s.modCtx c x fun k => { k with suspCause := 0 }) c x

/-! ### Write order of transfers (R28) -/

/-- One transfer stands before another in write order (R28). -/
def Xfer.before (a b : Xfer) : Bool := decide (a.due < b.due ∨ (a.due = b.due ∧ a.seq < b.seq))
def insertXfer (y : Xfer) : List Xfer → List Xfer
  | [] => [y]
  | z :: rest => if y.before z then y :: z :: rest else z :: insertXfer y rest
/-- Bytes of a granule already given by transfers that stand later in order. -/
def laterBytes (xs : List Xfer) (y : Xfer) (base : Nat) : List Nat :=
  xs.flatMap fun z => if y.before z then z.grans.flatMap (fun g => if g.base = base ∧ g.written then g.cover else []) else []

/-! ### The end of a task (R156, R223, R265, R307) -/

/-- A granule of a context's transfer that has arrived is written; a poisoned line written only in part is a consumption (R325). -/
def flushGran (c x : Nat) (xs : List Xfer) (y : Xfer) (s : State) (g : Gran) : State :=
  if g.written || g.left != 0 then s
  else
    let later := laterBytes xs y g.base
    let bytes := (g.cover.filter fun a => !later.contains a).map fun a => (a, BitVec.ofNat 8 (g.data.get 0 a))
    let s' := s.store bytes none
    match partLines s bytes with
    | [] => s'
    | l :: _ => defer s' c x (poisonCause l 0 false false 15) y.at_
/-- Transfers issued before the end go on (R156): what has arrived and waits for its due cycle is written. -/
def flushXfers (c x : Nat) (xs : List Xfer) : State → List Xfer → State
  | s, [] => s
  | s, y :: rest => flushXfers c x xs ((if y.dead then [] else y.grans).foldl (flushGran c x xs y) s) rest
/-- Busy ranges of these commands are cleared, but for those still in progress (R96). -/
def clearBusy (s : State) (cmds : List Nat) : State :=
  let gone := cmds.filter fun i => !(s.ops.any fun a => a.id == i && (match a.kind with | .nmcmd .. => true | _ => false))
  { s with hbmStacks := s.hbmStacks.map fun t => (t.1, { t.2 with busy := t.2.busy.filter fun b => !gone.contains b.1 }) }

/-- The context becomes empty: registers, monitors, transfers, beats and claims go; its partition's task learns of it.  An open segment
that `ABORT` discards leaves the bytes it has written in the own scratchpad (R265; DESIGN CHOICE, log entry 89). -/
def endTask (s : State) (c x : Nat) (aborted : Bool) : State :=
  let k : Ctx := s.ctx c x
  let s : State := clearBusy (flushXfers c x k.regs.xfers s k.regs.xfers) k.nmUnfenced
  let k : Ctx := s.ctx c x
  let s : State := returnCredits s c x (k.queues.flatMap fun e => e.2)
  let s : State := match k.seg with | some g => returnCredits s c x (g.beats.flatMap fun e => e.2) | none => s
  let ts : List Task := s.tasks.map fun t =>
    if t.id = k.info.task then
      { t with
        failed := t.failed || !k.deferred.isEmpty
        causes := t.causes ++ k.deferred.map (fun r => { r with ended := true })
        parts := t.parts.map fun p => if p.core = c ∧ p.ctx = x ∧ p.state = 1 then { p with state := if aborted then 4 else 3 } else p }
    else t
  let s := { s with tasks := ts }
  let s := s.modCore c fun q => { q with claims := q.claims.filter fun e => e.2.owner != x }
  let s := s.modCtx c x fun k =>
    { Ctx.reset with energy := k.energy, ensat := k.ensat, gearReq := k.gearReq, level := k.level, held := k.held, bkpt := k.bkpt }
  leave (forget s c x) c x

/-! ### Trap records (R262 to R264) -/

/-- The eight dwords of a record posted under a TQPROD value (R262). -/
def Rec.words (r : Rec) (prod : Nat) : List Nat :=
  let q := r.cause
  let w0 := q.code * 2 ^ 56 + r.at_.slot * 2 ^ 52 + r.at_.rep * 2 ^ 48 + r.cls * 2 ^ 46 + r.lvl * 2 ^ 44 + r.ctx * 2 ^ 42 +
    (r.core % 512) * 2 ^ 33 + (r.part % 128) * 2 ^ 26 + r.ended.toNat * 2 ^ 24 + q.tcode % 256 * 2 ^ 16 + prod % 2 ^ 16
  [w0, r.at_.lt % 2 ^ 64, r.at_.pc % 2 ^ 32, q.addr % 2 ^ 64, q.info0 % 2 ^ 64, q.info1 % 2 ^ 64, q.info2 % 2 ^ 64, q.info3 % 2 ^ 64]
def Rec.bytes (r : Rec) (prod : Nat) : List Byte := (r.words prod).flatMap (toBytes 8)

def tqEn (v : Nat) : Bool := bit v 0
def tqLen (v : Nat) : Nat := bits v 1 4
/-- The partition's trap queue has space (R264). -/
def Part.tqSpace (p : Part) : Bool := tqEn p.tqctl && decide (p.tqprod - p.tqcons < 2 ^ tqLen p.tqctl)

/-- Posts a record: entry TQPROD mod 2^LEN, then TQPROD + 1, then the stamp (R264); or the state where it cannot be posted. -/
def postRecord (s : State) (p : Nat) (r : Rec) : Except State State :=
  let q := s.part p
  if !q.tqSpace then .error s
  else match deviceWrite s p (q.tqbase + 64 * (q.tqprod % 2 ^ tqLen q.tqctl)) (r.bytes q.tqprod) with
    | .error s => .error s
    | .ok s =>
      let s := s.modPart p fun q => { q with tqprod := (q.tqprod + 1) % 2 ^ 64 }
      if q.tqstamp = 0 then .ok s else .ok (oweWord s p q.tqstamp ((q.tqprod + 1) % 2 ^ 64))

/-- A record goes to Kloty's queue, that of the die of the partition's control core (R255, R347). -/
def toKloty (s : State) (p : Nat) (r : Rec) : State :=
  s.modPart (kloty (dieOf (s.part p).cfg.control)) fun q => { q with kq := q.kq ++ [r], tqprod := (q.tqprod + 1) % 2 ^ 64 }
/-- Records of bound events that were held are posted, the oldest first, as far as they can be; one that stands behind its context's
held record waits for that (R264, R281). -/
def postHeldEvents (p : Nat) : List Rec → State → State
  | [], s => s
  | r :: rest, s =>
    if r.behind && (s.ctx r.core r.ctx).held.isSome then postHeldEvents p rest s
    else match postRecord s p r with
      | .ok s' => postHeldEvents p rest (s'.modPart p fun q => { q with recHeld := q.recHeld.erase r })
      | .error s' => s'
def recFlush (s : State) (p : Nat) : State :=
  if (s.part p).recHeld.isEmpty then s else postHeldEvents p (s.part p).recHeld s
/-- A bound event of a context that waits and stands before the record that the context holds, or behind it. -/
def Rec.waits (c x : Nat) (behind : Bool) (r : Rec) : Bool := r.core == c && r.ctx == x && r.behind == behind
/-- The record that a context holds is posted, once its bound events before it are: records of one context are posted in order (R264). -/
def postOwn (s : State) (c x : Nat) : Option State :=
  match (s.ctx c x).held with
  | none => none
  | some r =>
    if (s.part r.part).recHeld.any (Rec.waits c x false) then none
    else match postRecord s r.part r with
      | .error _ => none
      | .ok s' => some ((s'.modCtx c x fun k => { k with held := none }).modPart r.part fun q =>
          { q with recHeld := q.recHeld.map fun e => if e.waits c x true then { e with behind := false } else e })
/-- A record is posted after those of its context that wait, or held in its context (R264); Kloty is told of one whose place cannot be
written (R281). -/
def postOrHold (s : State) (c x : Nat) (r : Rec) : State :=
  let s := recFlush s r.part
  let room := (s.part r.part).tqSpace
  let hold := fun (s : State) =>
    let s := s.modCtx c x fun k => { k with held := some r }
    if room then notify s r.part else s
  if (s.part r.part).recHeld.any (Rec.waits c x false) then hold s
  else match postRecord s r.part r with
    | .ok s => s
    | .error s => hold s
/-- A bound event: posted after its context's earlier records; held where its place cannot be written; dropped and counted where there
is no space (R264, R281). -/
def postEvent (s : State) (p : Nat) (r : Rec) : State :=
  let s := recFlush s p
  let s := match postOwn s r.core r.ctx with
    | some s => recFlush s p
    | none => s
  let q := s.part p
  let late := (s.ctx r.core r.ctx).held.isSome
  let room := tqEn q.tqctl && decide (q.tqprod - q.tqcons + q.recHeld.length < 2 ^ tqLen q.tqctl)
  let hold := fun (s : State) => notify (s.modPart p fun q => { q with recHeld := q.recHeld ++ [{ r with behind := late }] }) p
  if !room then s.modPart p fun q => { q with tqdrop := Nat.min (q.tqdrop + 1) (2 ^ 32 - 1) }
  else if late || !q.recHeld.isEmpty then hold s
  else match postRecord s p r with
    | .ok s => s
    | .error s => hold s

/-! ### Taking a cause and returning from one (R255, R256) -/

/-- SSTAT fields of a pending transfer (R259): DLY, PEND, PKIND, PLVL. -/
def pendBits (p : Option Pend) : Nat :=
  match p with
  | none => 0
  | some p => p.left * 2 ^ 10 + (match p.kind with
    | .untaken => 0
    | .jump _ => 2 ^ 9
    | .eret => 2 ^ 9
    | .loopEnter l => 2 ^ 9 + 1 * 2 ^ 7 + l * 2 ^ 5
    | .loopEnd l => 2 ^ 9 + 2 * 2 ^ 7 + l * 2 ^ 5
    | .endk => 2 ^ 9 + 3 * 2 ^ 7)
/-- The target a pending transfer keeps in SPTGT, where it has one. -/
def pendTarget (k : Ctx) (p : Option Pend) : Option Nat :=
  match p with
  | some ⟨.jump t, _⟩ => some t
  | some ⟨.eret, _⟩ => some k.sepc
  | _ => none
def sstatInh (v : Nat) : Bool := bit v 0
/-- The pending transfer that SSTAT and SPTGT record; DLY 0 with PEND is one that is due (DEDUCED, log entry 13), and
DLY 3, which no entry saves, is kept as three delay bundles (DESIGN CHOICE, log entry 76). -/
def sstatPend (v tgt : Nat) : Option Pend :=
  let dly := bits v 10 2
  if dly = 0 ∧ bit v 9 = false then none
  else some ⟨if !bit v 9 then .untaken else
    match bits v 7 2 with
    | 0 => .jump tgt | 1 => .loopEnter (bits v 5 2) | 2 => .loopEnd (bits v 5 2) | _ => .endk, dly⟩

/-- The vector of R255: SEPC, SSTAT and SPTGT are saved, INH is set, the next bundle is the one at STVEC. -/
def vector (k : Ctx) (code : Nat) : Ctx :=
  { k with
    sepc := k.regs.pc % 2 ^ 32,
    sstat := code * 2 ^ 56 + k.regs.rep * 2 ^ 12 + pendBits k.regs.pend + 1,
    sptgt := ((pendTarget k k.regs.pend).getD k.sptgt) % 2 ^ 32,
    sidle := k.regs.idleLeft,
    regs := { k.regs with pc := k.stvec, rep := 0, idleLeft := 0, pend := none },
    status := .ready,
    stepPending := false,
    dep := none }

/-- Taking a cause at the boundary where a context stands (R255, R260, R264): level U suspends; levels S and F vector while
INH is 0 and no record is held; otherwise the record goes to Kloty's queue and the context is suspended, and a housekeeping
core halts with a fatal error.  At level U a record still held is posted first; while it cannot be, the new one goes to Kloty's queue
(DESIGN CHOICE, log entry 77).  What `STEP` exempts is the first issue alone (R123).  The fatal halt leaves FCODE as it was (DESIGN CHOICE,
log entry 88). -/
def takeCause (s : State) (c x cls : Nat) (q : Cause) (at_ : Where) : State :=
  let k := s.ctx c x
  let p := s.partOf c
  let r : Rec := { cause := q, cls := cls, lvl := k.level, ctx := x, core := c, part := p, ended := false, at_ := at_, behind := false }
  let s := if q.code = 0x37 then (s.modCore c fun h => { h with ras := h.ras.set 2 (satCount (h.ras.get 0 2)) }).logEvent else s
  let s := s.modCtx c x fun k => { k with stepPending := false }
  let s := if k.level = 0 then (postOwn s c x).getD s else s
  let busy := (s.ctx c x).held.isSome || (k.level > 0 && sstatInh k.sstat)
  if busy then
    let s := suspendCtx s c x q.code
    if k.level = 2 then
      let s := s.modCore c fun h => { h with halted := true, active := none }
      ({ s with host := { s.host with fatal := true } }.raise 0).logEvent
    else toKloty s p r
  else if k.level = 0 then postOrHold (suspendCtx s c x q.code) c x r
  else
    let s := postOrHold s c x r
    let s := (chargeIdle s c).modCtx c x fun k => vector k q.code
    pickNext s c

/-- What `ERET` does after its delay bundles (R256): INH is cleared and the recorded point resumes. -/
def returnFrom (k : Ctx) : Ctx :=
  { k with
    sstat := setBits k.sstat 0 1 0,
    regs := { k.regs with pc := k.sepc, rep := bits k.sstat 12 4, idleLeft := k.sidle, pend := sstatPend k.sstat k.sptgt } }

/-! ### Context commands (R265) -/

/-- The end of a task whose `ENDK` has had its delay bundles (R156). -/
def Ctx.ends (k : Ctx) : Bool := k.regs.pend == some ⟨.endk, 0⟩
def endIfDue (s : State) (c x : Nat) : State :=
  if (s.ctx c x).status = .ready ∧ (s.ctx c x).ends then endTask s c x false else s
/-- RESUME and STEP, without effect on a task core while a checkpoint or an emergency save holds the cores (R343, R353); a context that a
`TRAP` stopped in the last delay bundle of its `ENDK` ends (R154, R156; DEDUCED, log entry 13). -/
def resumeCtx (s : State) (c x : Nat) (step : Bool) : State :=
  let k := s.ctx c x
  if k.status = .suspended ∧ k.busy = false ∧ (c ≥ 512 ∨ startsHeld s = false) then
    if k.ends then endTask s c x false else
    goOn (s.modCtx c x fun k => { k with stepPending := step, stepAt := (k.regs.pc, k.regs.rep) }) c x
  else s
def suspendCmd (s : State) (c x : Nat) : State :=
  let k := s.ctx c x
  if (k.status = .ready ∨ k.status = .frozen) ∧ k.busy = false then suspendCtx s c x 0 else s
def abortCmd (s : State) (c x : Nat) : State :=
  let k := s.ctx c x
  if k.status = .suspended ∧ k.busy = false then endTask s c x true else s

/-! ### Register writes that take effect in the next cycle (R139, R257 to R259) -/

/-- FMTCTL's fields (R66): reserved bits read zero. -/
def fmtMask (x : Nat) : Nat := bits x 0 3 + bits x 8 5 * 2 ^ 8 + bits x 16 5 * 2 ^ 16 + bits x 24 4 * 2 ^ 24

/-- The trap-queue control write (R259): EN from 0 to 1 clears both counters. -/
def writeTqctl (q : Part) (x : Nat) : Part :=
  let new := x % 2 ^ 5
  if tqEn new && !tqEn q.tqctl then { q with tqctl := new, tqprod := 0, tqcons := 0 } else { q with tqctl := new }

/-- Bits 2:0 of TQSTAMP, which is an 8-byte-aligned address, are kept as written (DESIGN CHOICE, log entry 75).  A write of selector
`sel`, index `idx`, by context `x` of core `c`; the target is what CTXSEL named at issue. -/
def writeSpr (s : State) (c x sel idx v tc tx : Nat) : State :=
  let p := s.partOf c
  match sel with
  | 0x05 => s.modRegs c x fun r => { r with fmtctl := fmtMask v }
  | 0x0C => s.modRegs c x fun r => { r with lc := r.lc.set idx (v % 2 ^ 32) }
  | 0x41 => s.modCtx c x fun k => { k with stvec := v % 2 ^ 32 }
  | 0x42 => s.modCtx c x fun k => { k with sepc := v % 2 ^ 32 }
  | 0x43 => s.modCtx c x fun k => { k with sstat := bits v 56 8 * 2 ^ 56 + bits v 5 11 * 2 ^ 5 + v % 2 }
  | 0x44 => s.modCtx c x fun k => { k with sptgt := v % 2 ^ 32 }
  | 0x45 => s.modPart p fun q => { q with tqbase := v % 2 ^ 57 / 64 * 64 }
  | 0x46 => s.modPart p fun q => writeTqctl q v
  | 0x48 => s.modPart p fun q => { q with tqcons := v % 2 ^ 64 }
  | 0x49 => s.modPart p fun q => { q with tqstamp := v % 2 ^ 57 }
  | 0x4A => s.modPart p fun q => { q with tqdrop := v % 2 ^ 32 }
  | 0x4B => s.modPart p fun q => { q with pctl := v % 2 }
  | 0x4C => s.modCtx c x fun k => { k with ctxsel := v % 2 ^ 11 }
  | 0x4D =>
    match v with
    | 1 => resumeCtx s tc tx false
    | 2 => resumeCtx s tc tx true
    | 3 => suspendCmd s tc tx
    | 4 => abortCmd s tc tx
    | _ => s
  | 0x4F => s.modCtx tc tx fun k => { k with bkpt := k.bkpt.set idx (BitVec.ofNat 64 (bits v 57 7 * 2 ^ 57 + v % 2 ^ 32)) }
  | 0x50 => s.modCtx tc tx fun k => { k with energy := v % 2 ^ 48, ensat := false }
  | 0x51 => s.modCtx tc tx fun k => { k with gearReq := v % 4 }
  | _ => s

/-! ### Knowledge of the race detector (R98, R103) -/

/-- Larger entries of two vectors. -/
def mergeVec : KV Nat → KV Nat → KV Nat
  | [], k => k
  | (x, n) :: rest, k => mergeVec rest (KV.set k x (Nat.max n (KV.get 0 k x)))
/-- The smallest scope that contains two cores (R93). -/
def scopeOf (c d : Nat) : Nat :=
  if c = d then 1 else if c / 8 = d / 8 then 2 else if dieOf c = dieOf d then 3 else 4
/-- The part of a vector that serves locations whose home scope an ordering operation of a scope contains (R93). -/
def withinScope (scope : Nat) (v : KV Nat) : KV Nat := v.filter fun e => decide (e.1 % 8 ≤ scope)
/-- An acquire by core `c` at a scope (R103): it learns what a release knew whose scope contains both, of the locations whose home
scope both scopes contain (R93, R98). -/
def acquire (s : State) (c scope : Nat) (r : Rel) : State :=
  if r.scope ≥ scopeOf r.core c then s.modCore c fun k => { k with k := mergeVec (withinScope (Nat.min scope r.scope) r.vec) k.k }
  else s
/-- `MONWAIT` observes a stamp, whose own scope alone counts. -/
def acquireOpt (s : State) (c : Nat) : Option Rel → State
  | none => s
  | some r => acquire s c r.scope r
/-- A core's own entries of its vector, one for each home scope that is covered (R81). -/
def ownEntry (v : KV Nat) (c j : Nat) : KV Nat := [2, 3, 4].foldl (fun v h => v.set (8 * c + h) j) v
/-- A release by core `c` (R103): its join count rises, and its vector goes with the release; none past 2^32 - 1. -/
def release (s : State) (c scope : Nat) : Option (State × Rel) :=
  let k := s.core c
  if k.j ≥ 2 ^ 32 - 1 then none
  else
    let vec := ownEntry k.k c (k.j + 1)
    some (s.setCore c { k with j := k.j + 1, k := vec }, ⟨c, scope, vec, false, []⟩)
/-- A `FENCE`'s release, and with it those of earlier fences of wider scope: what any of them carries serves a later atomic (R98). -/
def Rel.parts (r : Rel) : List Rel := { r with wider := [] } :: r.wider.map fun e => { r with scope := e.1, vec := e.2, wider := [] }
/-- A `FENCE`'s release after an earlier one: of a scope no wider than its own it carries all that the earlier one does. -/
def Rel.after (r : Rel) (old : Option Rel) : Rel :=
  { r with wider := ((old.toList.flatMap Rel.parts).filter fun q => decide (q.scope > r.scope)).map fun q => (q.scope, q.vec) }

/-! ### The race detector (R102 to R104) -/

/-- What an access finds: status 0 passes. -/
structure RaceResult where
  status : Nat
  core : Nat
  count : Nat
  deriving DecidableEq, Repr

/-- Core `c` knows core `x` past `e`, for locations of a home scope (R93, R104). -/
def ordered (k : KV Nat) (home c x e : Nat) : Bool := x == c || decide (KV.get 0 k (8 * x + home) > e)

/-- The check of R104 on a record. -/
def raceTest (k : KV Nat) (home c : Nat) (taskCores : List Nat) (r : Race) (write atomic : Bool) : RaceResult :=
  let bad := fun (d : Nat × Nat) => !ordered k home c d.1 d.2
  if write || atomic then
    match r.wr with
    | some (w, n, at_) =>
      if !(atomic && at_) && bad (w, n) then ⟨1, w, n⟩
      else readers bad r
    | none => readers bad r
  else
    match r.wr with
    | some (w, n, _) => if bad (w, n) then ⟨3, w, n⟩ else ⟨0, 0, 0⟩
    | none => ⟨0, 0, 0⟩
where
  readers (bad : Nat × Nat → Bool) (r : Race) : RaceResult :=
    match r.rd0.filter bad, r.rd1.filter bad with
    | some d, _ => ⟨2, d.1, d.2⟩
    | none, some d => ⟨2, d.1, d.2⟩
    | none, none =>
      if r.ov then
        match taskCores.find? (fun x => bad (x, r.f)) with
        | some x => ⟨4, x, r.f⟩
        | none => ⟨0, 0, 0⟩
      else ⟨0, 0, 0⟩

/-- The record after an access that passed (R104). -/
def raceRecord (c j : Nat) (r : Race) (write atomic : Bool) : Race :=
  if write || atomic then { r with wr := some (c, j, atomic), rd0 := none, rd1 := none, ov := false, f := 0 }
  else if r.rd0.any (fun d => d.1 == c) then { r with rd0 := some (c, j) }
  else if r.rd1.any (fun d => d.1 == c) then { r with rd1 := some (c, j) }
  else if r.rd0.isNone then { r with rd0 := some (c, j) }
  else if r.rd1.isNone then { r with rd1 := some (c, j) }
  else { r with ov := true, f := Nat.max r.f j }

/-- Cores of a task (R307). -/
def State.taskCores (s : State) (task : Nat) : List Nat :=
  match s.tasks.find? (fun t => t.id == task) with
  | some t => t.parts.map fun p => p.core
  | none => []

/-- An access to a covered granule by core `c` with join count `j`, for a task's generation: the failure, or the state with
the record made.  It is judged by the core's knowledge vector as it stands when the access performs (R104; DESIGN CHOICE, log entry 87). -/
def raceAccess (s : State) (c j gen task granule : Nat) (write atomic : Bool) : Except RaceResult State :=
  let r := s.races.get Race.empty granule
  let r := if r.gen = gen then r else { Race.empty with gen := gen }
  let res := raceTest (s.core c).k (homeOf (64 * granule)) c (s.taskCores task) r write atomic
  if res.status = 0 then .ok { s with races := s.races.set granule (raceRecord c j r write atomic) } else .error res
/-- The memory-model exception's cause (R263). -/
def raceCause (res : RaceResult) (addr slot : Nat) : Cause :=
  { code := 0x30, slot := slot, addr := addr, info0 := res.status + res.core % 512 * 2 ^ 16, info1 := res.count }

/-! ### Barriers (R88 to R90) -/

/-- Phases complete while CNT0 equals EXP (R89). -/
def Barrier.settle : Nat → Barrier → Barrier
  | 0, b => b
  | n + 1, b =>
    if b.brk = false ∧ b.cnt0 = b.exp then
      Barrier.settle n { b with passed := (b.passed + 1) % 2 ^ 32, cnt0 := b.cnt1, cnt1 := 0 }
    else b
/-- Delivery of an arrival for a phase (R89). -/
def Barrier.arrive (b : Barrier) (phase : Nat) : Barrier :=
  if b.exp = 0 then { b with brk := true }
  else if phase = b.passed then Barrier.settle 3 { b with cnt0 := b.cnt0 + 1 }
  else if phase = (b.passed + 1) % 2 ^ 32 then
    (if b.cnt1 = b.exp then { b with brk := true } else Barrier.settle 3 { b with cnt1 := b.cnt1 + 1 })
  else { b with brk := true }
/-- Delivery with the knowledge it carries (R103). -/
def deliver (s : State) (c bar phase : Nat) (r : Rel) : State :=
  s.modCore c fun k =>
    let b := (k.bars.get Barrier.start bar).arrive phase
    let b := if r.scope ≥ scopeOf r.core c then { b with kv := mergeVec (withinScope r.scope r.vec) b.kv } else b
    { k with bars := k.bars.set bar b }
/-- Phase `n` has completed (R90). -/
def Barrier.met (b : Barrier) (n : Nat) : Bool := decide ((b.passed + 2 ^ 33 - n % 2 ^ 32 - 1) % 2 ^ 32 < 2 ^ 31)
/-- `BINIT` and the `.barrier` initialisers (R88, R151). -/
def armBarrier (k : Core) (bar exp : Nat) : Core := { k with bars := k.bars.set bar { Barrier.start with exp := exp % 2 ^ 16 } }

/-! ### Results becoming visible (R32, R116, R119, R167) -/

/-- Latency of what the settling passes do: 0 registers and L-slot stores, 1 C-slot writes, 2 register writes by `SWR`
and `SWRP` other than FMTCTL's, 3 flag updates. -/
def Res.pass : Res → Nat
  | .cstore .. => 1 | .atom .. => 1 | .spr .. => 2 | .fmtOr .. => 3 | _ => 0

/-- A later write of the context covers these bytes of a stamp that has not performed yet: the accesses of a context to one granule take
effect in its program order (R94; DEDUCED, log entry 66). -/
def Async.covered (c x task lt : Nat) (bytes : List (Nat × Byte)) (a : Async) : Async :=
  match a.kind with
  | .ownStamp l r =>
    if a.core = c ∧ a.ctx = x ∧ a.task = task ∧ a.at_.lt < lt then
      { a with kind := .ownStamp (l.filter fun e => !bytes.any fun b => b.1 == e.1) r }
    else a
  | _ => a
def State.coverStamps (s : State) (c x lt : Nat) (bytes : List (Nat × Byte)) : State :=
  { s with ops := s.ops.map (Async.covered c x (s.ctx c x).info.task lt bytes) }
/-- Own bytes of the core scratchpad are written: undo log first, of the units that the write performs in, then memory; a partly
written poisoned line is a consumption, judged when its report is taken (R325, R326). -/
def ownWrite (s : State) (c x : Nat) (bytes : List (Nat × Byte)) (rel : Option Rel) (at_ : Where) : State :=
  let bad := partLines s bytes
  let s := logUnits s c x 0 (unitsOf (performed s bytes))
  let seg := (s.ctx c x).seg
  let s := ((s.store bytes rel).modCtx c x fun k => { k with seg := seg }).coverStamps c x at_.lt bytes
  match bad with
  | [] => s
  | l :: _ => defer s c x (poisonCause l 0 false false 15) at_

/-- The value an atomic leaves (R186): operation, width in bits, old value, operand, compare value. -/
def atomNew (op w old b cmp : Nat) : Nat :=
  let sl := fun (x : Nat) => sgn x w
  match op with
  | 0 => (old + b) % 2 ^ w
  | 1 => if sl old ≤ sl b then old else b
  | 2 => if sl old ≥ sl b then old else b
  | 3 => Nat.min old b
  | 4 => Nat.max old b
  | 5 => old &&& b
  | 6 => old ||| b
  | 7 => old ^^^ b
  | 8 => b
  | 9 => if old = cmp then b else old
  | 10 => (fadd 10 ⟨0, 0⟩ old b).1
  | _ => (fadd 8 ⟨0, 0⟩ old b).1
/-- Bytes of a width code of R186. -/
def atomBytes (w : Nat) : Nat := match w with | 0 => 2 | 1 => 4 | _ => 8

/-- An L-slot store is remembered for the view-order rule (R87). -/
def noteStore (r : Regs) (swz : Bool) (iss cyc : Nat) (bytes : List (Nat × Byte)) : Regs :=
  { r with recent := r.recent ++ runs (bytes.map fun b => b.1) }
where
  /-- Consecutive addresses joined into runs. -/
  runs : List Nat → List Recent
    | [] => []
    | a :: rest =>
      match runs rest with
      | e :: es => if e.ga = a + 1 then { e with ga := a, len := e.len + 1 } :: es else ⟨a, 1, swz.toNat, iss, cyc⟩ :: e :: es
      | [] => [⟨a, 1, swz.toNat, iss, cyc⟩]

def clearUnit {w : Nat} (m : KV (BitVec w)) (rows unit : Nat) : KV (BitVec w) :=
  m.filter fun e => !(decide (rows * unit ≤ e.1 ∧ e.1 < rows * (unit + 1)))
/-- The 64-byte units of the undo log that a matrix unit takes (R49). -/
def unitLines (kind unit : Nat) : List Nat :=
  match kind with
  | 0 => seqFrom (128 * unit) 128
  | 1 => seqFrom (256 * unit) 256
  | _ => []
/-- A unit set to zero bits (R224, R231). -/
def zeroUnit (s : State) (c x kind unit : Nat) (log : Bool) : State :=
  match kind with
  | 0 => (if log then logUnits s c x 2 (unitLines 0 unit) else s).modCore c fun k => { k with os := clearUnit k.os 64 unit }
  | 1 => (if log then logUnits s c x 1 (unitLines 1 unit) else s).modCore c fun k => { k with acc := clearUnit k.acc 64 unit }
  | _ => s.modCore c fun k => { k with lt := clearUnit k.lt 128 unit }

/-- The context holds the unit. -/
def claimed (s : State) (c x kind unit : Nat) : Bool :=
  match (s.core c).claims.find (claimKey kind unit) with
  | some e => e.owner == x && !e.mark
  | none => false
/-- The context owns the unit, marked or not: a write in flight still lands (R223). -/
def owns (s : State) (c x kind unit : Nat) : Bool :=
  match (s.core c).claims.find (claimKey kind unit) with
  | some e => e.owner == x
  | none => false

/-- One result becomes visible. -/
def applyRes (s : State) (c x : Nat) (f : InFlight) : State :=
  let rg := fun h => s.modRegs c x h
  let at_ : Where := ⟨f.iss, (s.ctx c x).regs.pc, 15, 0⟩
  match f.res with
  | .g r v => rg (·.wg r v)
  | .p r v => rg (·.wp r v)
  | .a r v => rg (·.wa r v)
  | .stride r l v => rg (·.wstr r l v)
  | .lc n v => rg fun q => { q with lc := q.lc.set n v }
  | .v r v => rg (·.wv r v)
  | .m r v => rg (·.wm r v)
  | .vshape rc => rg fun q => { q with vshape := rc }
  | .qm n v => rg fun q => { q with qm := q.qm.set n v }
  | .qk n v => rg fun q => { q with qk := q.qk.set n v }
  | .bd n b => rg fun q => { q with bd := q.bd.set n b }
  | .ct n t => rg fun q => { q with ct := q.ct.set n t }
  | .fmtSet v => rg fun q => { q with fmtctl := fmtMask v }
  | .fmtOr v => rg fun q => { q with fmtctl := q.fmtctl ||| v * 2 ^ 16 }
  | .arr a => rg fun q => { q with arr := a }
  | .seqLvl l g v => rg (·.wseq l g v)
  | .acc row v =>
    if owns s c x 1 (row / 64) then
      (logUnits s c x 1 (seqFrom (4 * row) 4)).modCore c fun k => { k with acc := k.acc.set row v }
    else s
  | .os row v =>
    if owns s c x 0 (row / 64) then
      (logUnits s c x 2 (seqFrom (2 * row) 2)).modCore c fun k => { k with os := k.os.set row v }
    else s
  | .lt row v => if owns s c x 2 (row / 128) then s.modCore c fun k => { k with lt := k.lt.set row v } else s
  | .zero kind unit log => zeroUnit s c x kind unit log
  | .release kind first cnt => dropUnits s c x fun e => decide (claimKey kind first ≤ e.1 ∧ e.1 < claimKey kind (first + cnt))
  | .store swz bytes => (ownWrite s c x bytes none at_).modRegs c x fun r => noteStore r swz f.iss f.due bytes
  | .cstore bytes rel => ownWrite s c x bytes rel at_
  | .atom ga op w b cmp ret rel =>
    if s.poisoned (ga / 64) then defer s c x (poisonCause (ga / 64) 0 false false 15) at_ else
    let n := atomBytes w
    let old := readNat s.mem n ga
    let seen := (s.locKnow.find (ga / 8 * 8)).filter (·.atom)
    let s := ownWrite s c x (cells ga (toBytes n (atomNew op (8 * n) old b cmp))) rel at_
    let s := s.modCtx c x fun k => { k with seen := seen.toList.flatMap Rel.parts ++ k.seen }
    if ret.isEmpty then s
    else
      let back : InFlight := ⟨f.iss, f.due + 2, .cstore (ret.zip (toBytes n old)) none⟩
      s.modRegs c x fun r => { r with inflight := r.inflight ++ [back] }
  | .spr sel idx v tc tx => writeSpr s c x sel idx v tc tx

def applyAll (c x : Nat) : State → List InFlight → State
  | s, [] => s
  | s, f :: rest => applyAll c x (applyRes s c x f) rest

/-! ### Granule writes of scheduled transfers (R26 to R29) -/

/-- Granules of one transfer that are due and whole are written (R26); where the undo log is full the write is held and the
segment-overflow trap is reported (R49). -/
def writeGrans (c x : Nat) (y : Xfer) : State → List Gran → State
  | s, [] => s
  | s, g :: rest =>
    if g.written || g.left != 0 then writeGrans c x y s rest
    else
      let k := s.ctx c x
      let full := match k.seg with
        | some sg => !sg.units.contains (0, g.base) && decide (sg.units.length ≥ 1024)
        | none => false
      if full then
        let s := if k.deferred.any (fun r => r.cause.code == 0x10) then s
          else defer s c x { code := 0x10, slot := y.at_.slot } y.at_
        writeGrans c x y s rest
      else
        let later := laterBytes k.regs.xfers y g.base
        let bytes := (g.cover.filter fun a => !later.contains a).map fun a => (a, BitVec.ofNat 8 (g.data.get 0 a))
        let s := ownWrite s c x bytes none y.at_
        let mark := fun (z : Xfer) => if z.id = y.id then
            { z with grans := z.grans.map fun h => if h.base = g.base then { h with written := true } else h } else z
        let s := s.modRegs c x fun r => { r with
          unfenced := r.unfenced.filter (fun u => u.base != g.base)
          xfers := r.xfers.map mark }
        writeGrans c x y s rest

def Xfer.done (y : Xfer) : Bool := y.grans.all fun g => g.written
/-- Transfers wholly written are forgotten once none before them is pending and no segment is open. -/
def pruneXfers (k : Ctx) : Ctx :=
  if k.seg.isSome then k
  else
    let left := k.regs.xfers.filter fun y => !(y.done && !(k.regs.xfers.any fun z => !z.done && z.before y))
    { k with regs := { k.regs with xfers := left } }
/-- Every granule whose due cycle is not after `t` and whose data has arrived is written. -/
def writeDue (s : State) (c x t : Nat) : State :=
  let k := s.ctx c x
  let ys := (k.regs.xfers.filter fun y => decide (y.due ≤ t) && !y.done && !y.dead)
  let s := ys.foldl (fun s y => writeGrans c x y s y.grans) s
  if ys.isEmpty then s else s.modCtx c x pruneXfers

/-- LTIME moves to the next cycle (R24): due granules are written, then due results become visible. -/
def settle (s : State) (c x : Nat) : State :=
  let t := (s.ctx c x).regs.ltime + 1
  let s := s.modRegs c x fun r => { r with
    ltime := t,
    recent := r.recent.filter (fun e => decide (t < e.cycle + 16)),
    vjoins := r.vjoins.filter fun j => decide (t < j + 24) }
  let s := writeDue s c x t
  let fl := (s.ctx c x).regs.inflight
  let now := fl.filter fun f => decide (f.due ≤ t)
  let s := s.modRegs c x fun r => { r with inflight := fl.filter fun f => !decide (f.due ≤ t) }
  [0, 1, 2, 3].foldl (fun s p => applyAll c x s (now.filter fun f => f.res.pass == p)) s

/-- A rewind, after which the context stands at the segment's first bundle with its due granules written (R51). -/
def rewindNow (s : State) (c x : Nat) (line : Option Nat) (residue : Bool) : State :=
  let s := (rewind (chargeIdle s c) c x line residue).logEvent
  pickNext (writeDue s c x (s.ctx c x).regs.ltime) c

end Sys2Proof.Machine
end

