-- ==== Sys2Proof/Machine/Issue.lean ====
section
/-!
DEFINITION. The issue of a bundle (R12, R31, R108 to R123): what a slot syllable is to the bundle, the order in which faults
and dependences are judged (R118, R31), commit, the loop step and pending transfers, and the issue of one syllable alone,
which is what the meaning of a syllable instruction is.
-/

namespace Sys2Proof.Machine

open Sys2Proof

/-- What a slot says of its dependences (R31). -/
inductive Wait where
  | ok
  | dep (d : Dep)
  /-- A trap judged with the dependence itself: skid overrun, barrier broken (R31). -/
  | trap (q : Cause)
  deriving DecidableEq, Repr

/-- Why a slot's effect does not take place. -/
inductive Stop where
  | trap (q : Cause)
  /-- A poisoned line is read at the issuing core's bundle (R326). -/
  | consume (line va : Nat)
  /-- Text on an unreachable module or in a lost allocation: the deferred fault of R313 or R299 (DEDUCED, log entry 81). -/
  | later (q : Cause)
  /-- Text that a peer or the host refuses: the fetch fault (R281, R318, R345). -/
  | refused (ga va : Nat)
  deriving DecidableEq, Repr

/-- What a slot syllable knows of its issue: where, the step count of a sticky re-issue (R112), the context as it stood at the
start of the bundle, the rendezvous of an open segment, the bundle's VJOIN, `BNDSET`s of the same bundle. -/
structure Iss where
  core : Nat
  ctx : Nat
  slot : Nat
  k : Nat
  pc : Nat
  next : Nat
  rep : Nat
  lt : Nat
  me : Ctx
  inSeg : Bool
  rdv : Bool
  vjoin : Bool
  bnd : List (Nat × Bound)
  deriving DecidableEq, Repr

/-- The registers as they stood at the start of the bundle. -/
def Iss.regs (i : Iss) : Regs := i.me.regs
def Iss.at_ (i : Iss) : Where := ⟨i.lt, i.pc, i.slot, i.rep⟩
/-- LTIME as software reads it: modulo 2^64 (R24). -/
def Iss.ltime (i : Iss) : Nat := i.lt % 2 ^ 64
/-- A precise cause of this slot. -/
def Iss.trap {α : Type} (i : Iss) (code : Nat) (addr : Nat := 0) : Except Stop α := .error (.trap { code := code, slot := i.slot, addr := addr })
/-- A result that becomes visible `lat` cycles after the issue (R119). -/
def Iss.emit (i : Iss) (lat : Nat) (r : Res) (s : State) : State :=
  s.modRegs i.core i.ctx fun q => { q with inflight := q.inflight ++ [⟨i.lt, i.lt + lat, r⟩] }
/-- An operation with an effect outside the core: inside an open segment only the rendezvous bundle performs it (R48). -/
def Iss.outward (i : Iss) : Except Stop Unit := if i.inSeg && !i.rdv then i.trap 0x0F else .ok ()
/-- Undo-log space for units, or the segment-overflow trap (R49). -/
def Iss.reserve (i : Iss) (us : List (Nat × Nat)) (s : State) : Except Stop State :=
  match Machine.reserve s i.core i.ctx us with
  | some s => .ok s
  | none => i.trap 0x10

/-- A syllable's meaning inside a bundle. -/
structure Op where
  /-- Opcode 0x60 to 0x67 of the B slot (R254). -/
  priv : Bool := false
  /-- It is privileged as the state stands: `LAUNCH` at level U while the supervisor keeps it (R157). -/
  privNow : State → Nat → Bool := fun _ _ => false
  /-- A control instruction (R120). -/
  ctl : Bool := false
  /-- The FEAT0 bit without which the opcode is illegal (R8, R117). -/
  feat : Option Nat := none
  /-- `BRK` with its code (R154). -/
  brk : Option Nat := none
  /-- `TRAP` with its code (R154). -/
  user : Option Nat := none
  /-- Vector sources: position, register, hold bit (R115). -/
  src : List (Nat × Nat × Bool) := []
  /-- Energy class of R338, by the state at issue. -/
  cls : Iss → State → Nat := fun _ _ => 0
  wait : Iss → State → Wait := fun _ _ => .ok
  run : Iss → State → Except Stop State

/-- A vector source: the register, or the hold latch (R115). -/
def Iss.src (i : Iss) (pos reg : Nat) (hold : Bool) : VReg :=
  if hold then ((i.regs.holds.find (4 * i.slot + pos)).map (·.val)).getD (i.regs.rv reg) else i.regs.rv reg

/-- A syllable on its way through the issue. -/
structure Syl where
  slot : Nat
  k : Nat
  word : Nat
  ext : Option Nat
  dict : Option Nat
  off : Nat
  own : Bool
  /-- The meaning, or that the word is no instruction of its slot. -/
  op : Option Op

/-- A bundle's header fields with its length in text. -/
structure Head where
  len : Nat
  rep : Nat
  seg : Bool
  rdv : Bool
  stk : Bool
  dict : Option Nat
  deriving DecidableEq, Repr

/-! ### Breakpoints (R122, R123) -/

/-- One breakpoint register against one slot's issue: `off` and `dict` name the bundle or entry the syllable came from. -/
def bkptHit (b : Word) (sticky : Bool) (slot off : Nat) (dict : Option Nat) : Bool :=
  let v := b.toNat
  bit v 63 && (bits v 57 4 == slot || bits v 57 4 == 15) && (!sticky || bit v 62) &&
  (if bit v 61 then dict == some (bits v 0 8) else bits v 0 32 == off)
/-- The lowest breakpoint register that matches a syllable. -/
def bkptOf (k : Ctx) (y : Syl) : Option Nat :=
  [0, 1, 2, 3].find? fun n => bkptHit (k.bkpt.get 0 n) (!y.own) y.slot y.off y.dict
/-- A bundle that issues no syllable matches SLOT 15 and its offset. -/
def bkptEmpty (k : Ctx) : Option Nat :=
  [0, 1, 2, 3].find? fun n =>
    let v := (k.bkpt.get 0 n).toNat
    bit v 63 && bits v 57 4 == 15 && !bit v 61 && bits v 0 32 == k.regs.pc
/-- The context stands at the point where a `STEP` has resumed it, which has not issued since (R123). -/
def Ctx.stepping (k : Ctx) : Bool := k.stepPending && k.stepAt == (k.regs.pc, k.regs.rep)
/-- The breakpoint trap of a bundle, if any: slots in header order, a register before `BRK`.  A bundle with an empty mask whose
sticky slots issue again is no issue without a syllable (DESIGN CHOICE, log entry 64). -/
def breakCause (k : Ctx) (syls : List Syl) : Option Cause :=
  if k.stepping then none
  else if syls.isEmpty then (bkptEmpty k).map fun n => { code := 0x05, info0 := n }
  else syls.findSome? fun y =>
    match bkptOf k y with
    | some n => some { code := 0x05, slot := y.slot, info0 := n }
    | none => (y.op.bind (·.brk)).map fun code => { code := 0x05, slot := y.slot, info0 := 4, tcode := code }

/-! ### Fetching text (R106, R118, R281) -/

/-- One word of the text, or the cause of not having it (R281, R299, R313). -/
def fetchAt (s : State) (c x va : Nat) : Except Stop Nat :=
  match xlate s c (s.ctx c x).level .fetch (va % 2 ^ 57) with
  | .error (.poison line lvl idx marked) =>
    .error (.trap { code := 0x36, addr := va % 2 ^ 57, info0 := line, info1 := lvl + (if marked then 0 else 256), info2 := idx })
  | .error (.lost gen peer) => .error (.later (xfailCause (.lost gen peer) (va % 2 ^ 57)))
  | .error _ => .error (.trap { code := 0x01, addr := va % 2 ^ 57 })
  | .ok t =>
    if unreachable s t.ga then .error (.later (goneCause (va % 2 ^ 57)))
    else if refused s (s.partOf c) t then .error (.refused t.ga (va % 2 ^ 57))
    else if nmBusy s (t.ga / 64) then .error (.trap (raceCause ⟨5, 0, 0⟩ (va % 2 ^ 57) 15))
    else if s.poisoned (t.ga / 64) then .error (.consume (t.ga / 64) (va % 2 ^ 57)) else .ok (readNat s.mem 4 t.ga)
/-- The text word at a byte offset. -/
def fetchWord (s : State) (c x off : Nat) : Except Stop Nat :=
  let t := (s.ctx c x).info
  if off % 4 ≠ 0 ∨ off + 4 > t.textSz then .error (.trap { code := 0x01, addr := (t.textVa + off) % 2 ^ 64 })
  else fetchAt s c x (t.textVa + off)
/-- `n` words from an address, up to the first that cannot be had. -/
def fetchMany (f : Nat → Except Stop Nat) : Nat → Nat → List Nat × Option Stop
  | 0, _ => ([], none)
  | n + 1, off =>
    match f off with
    | .error e => ([], some e)
    | .ok w => let r := fetchMany f n (off + 4); (w :: r.1, r.2)

/-- Words after the header that a bundle may need: two for each mask bit. -/
def wordsAfter (h : Nat) : Nat := if bitsAt h 30 2 = 0 then 2 * popN 11 (bitsAt h 19 11) else 0
/-- The syllables that a header's mask names, of an explicit bundle (R106, R107). -/
def maskSyls (h : Nat) (ws : List Nat) : Except DecodeErr (List (Nat × Nat × Option Nat)) :=
  if bitsAt h 30 2 = 0 then (takeSyls h (List.range 11) ws).map (·.1) else .ok []
/-- The bundle at an offset of the text (R106, R118): first the fetch fault of missing words, then the illegal bundle of a header
that breaks R108. -/
def fetchBundle (s : State) (c x off : Nat) : Except Stop Instr :=
  match fetchWord s c x off with
  | .error e => .error e
  | .ok h =>
    let r := fetchMany (fetchWord s c x) (wordsAfter h) (off + 4)
    match maskSyls h r.1, decodeBundle (h :: r.1) with
    | .error _, _ => .error (r.2.getD (.trap { code := 0x01 }))
    | .ok _, .ok (i, _) => .ok i
    | .ok _, .error _ => .error (.trap { code := 0x02 })
/-- The syllables of the bundle at an offset whose header breaks R108, and whether it has STK. -/
def brokenSyls (s : State) (c x off : Nat) : List (Nat × Nat × Option Nat) × Bool :=
  match fetchWord s c x off with
  | .error _ => ([], false)
  | .ok h =>
    match maskSyls h (fetchMany (fetchWord s c x) (wordsAfter h) (off + 4)).1 with
    | .ok l => (l, bitsAt h 30 2 == 0 && bitAt h 12)
    | .error _ => ([], false)
/-- The syllables of a dictionary entry (R110): entries stand 96 bytes apart. -/
def fetchEntry (s : State) (c x idx : Nat) : Except Stop (List (Nat × Nat × Option Nat)) :=
  let t := (s.ctx c x).info
  if idx ≥ t.dictN then .error (.trap { code := 0x02 })
  else
    let base := t.dictVa + 96 * idx
    let r := fetchMany (fetchAt s c x) 24 base
    match decodeBundle r.1 with
    | .ok (.bundleIssue 0 false false false syls, _) => .ok syls
    | .ok _ => .error (.trap { code := 0x02 })
    | .error .short => .error (r.2.getD (.trap { code := 0x02 }))
    | .error _ => .error (.trap { code := 0x02 })

/-! ### Rules on control instructions (R111, R120) -/

/-- Exits of the active loop levels. -/
def exits (r : Regs) : List Nat :=
  ([0, 1, 2, 3].filter fun l => (r.loop l).act).map fun l => (r.loop l).exit
/-- A bundle that ends at `next` is one of the last two of a hardware loop body. -/
def lastTwo (s : State) (c x next : Nat) : Bool :=
  let es := exits (s.ctx c x).regs
  if es.isEmpty then false
  else es.contains next ||
    (match fetchBundle s c x next with
      | .ok i => es.contains (next + bundleLen i)
      | .error _ => false)
/-- The illegal-bundle trap of a header and its control instruction (R47, R111, R120, R156). -/
def illegalBundle (s : State) (c x : Nat) (h : Head) (syls : List Syl) : Bool :=
  let k := s.ctx c x
  let ctl := syls.any fun y => (y.op.map (·.ctl)).getD false
  let segBad := h.seg && k.regs.rep == 0 && k.regs.idleLeft == 0 &&
    (match k.seg with | some g => !(g.reissue && k.regs.pc == g.shadow.pc) | none => false)
  let endkSeg := h.seg && (match k.regs.pend with | some ⟨.endk, _⟩ => true | _ => false)
  segBad || endkSeg || (ctl && (h.rep != 0 || k.regs.pend.isSome || lastTwo s c x (k.regs.pc + h.len)))

/-! ### Decode faults (R115, R118) -/

/-- Hold use in breach of R115. -/
def holdBad (r : Regs) (slot : Nat) (src : Nat × Nat × Bool) : Bool :=
  src.2.2 && (match r.holds.find (4 * slot + src.1) with
    | some h => h.reg != src.2.1
    | none => true)
/-- A privileged opcode, whether or not the rest of the word is legal (R254). -/
def privWord (slot w : Nat) : Bool := slot == 0 && decide (0x60 ≤ bitsAt w 24 7 ∧ bitsAt w 24 7 ≤ 0x67)
def Syl.priv (y : Syl) : Bool := match y.op with | some o => o.priv | none => privWord y.slot y.word
/-- The FEAT0 bit a syllable needs: every N-slot opcode needs bit 0 (R8, R117, R348). -/
def needsFeat (slot : Nat) (o : Op) : Option Nat := if slot == 9 then some 0 else o.feat
/-- The decode fault of one syllable: privilege, then everything illegal (DEDUCED, log entry 12). -/
def sylFault (s : State) (c x : Nat) (y : Syl) : Option Cause :=
  let k := s.ctx c x
  if (y.priv || (y.op.map fun o => o.privNow s c).getD false) && k.level == 0 then some { code := 0x04, slot := y.slot }
  else match y.op with
    | none => some { code := 0x03, slot := y.slot }
    | some o =>
      if ((needsFeat y.slot o).map fun b => !s.hasFeat (s.partOf c) b).getD false || o.src.any (holdBad k.regs y.slot) then
        some { code := 0x03, slot := y.slot }
      else none

/-! ### Waits and effects -/

def mkIss (s : State) (c x : Nat) (h : Head) (syls : List Syl) (bnd : List (Nat × Bound)) (y : Syl) : Iss :=
  let k := s.ctx c x
  { core := c, ctx := x, slot := y.slot, k := y.k, pc := k.regs.pc, next := k.regs.pc + h.len, rep := k.regs.rep,
    lt := k.regs.ltime, me := k, inSeg := k.seg.isSome || h.seg, rdv := h.rdv,
    vjoin := syls.any (fun z => z.slot == 4 && bitsAt z.word 24 7 == 0x08), bnd := bnd }

/-- The first unmet dependence of a bundle, slot by slot. -/
def firstDep (s : State) (mk : Syl → Iss) : List Syl → Option Dep
  | [] => none
  | y :: rest =>
    match (match y.op with | some o => o.wait (mk y) s | none => .ok) with
    | .dep d => some d
    | _ => firstDep s mk rest

/-- The slots' effects in header order, each judged with its own trap of R31 first. -/
def runAll (mk : Syl → Iss) : State → List Syl → Except (Nat × Stop) State
  | s, [] => .ok s
  | s, y :: rest =>
    match y.op with
    | none => runAll mk s rest
    | some o =>
      match o.wait (mk y) s with
      | .trap q => .error (y.slot, .trap q)
      | _ =>
        match o.run (mk y) s with
        | .error e => .error (y.slot, e)
        | .ok s' => runAll mk s' rest

/-! ### Commit -/

/-- Hold latches take what the slot read (R115); the sticky record takes the syllable or its next step count (R112). -/
def keepSources (i : Iss) (r : Regs) : List (Nat × Nat × Bool) → Regs
  | [] => r
  | (pos, reg, hold) :: rest =>
    if hold then keepSources i r rest
    else keepSources i { r with holds := r.holds.set (4 * i.slot + pos) ⟨reg, i.regs.rv reg⟩ } rest
def keepRecord (r : Regs) (y : Syl) : Regs :=
  if y.slot = 0 ∨ y.slot = 10 then r
  else { r with sticky := r.sticky.set y.slot ⟨y.word, y.ext, y.k, y.dict, y.off⟩ }
def keepSyls (mk : Syl → Iss) (r : Regs) : List Syl → Regs
  | [] => r
  | y :: rest => keepSyls mk (keepRecord (keepSources (mk y) r ((y.op.map (·.src)).getD [])) y) rest

/-- Energy of the syllables of an issue, or of an idle cycle (R339, R340). -/
def issueCharge (mk : Syl → Iss) (s : State) (gear : Nat) (syls : List Syl) : Nat :=
  if syls.isEmpty then weight gear 12
  else (syls.map fun y => weight gear ((y.op.map fun o => o.cls (mk y) s).getD 0)).sum

/-- One level's loop step on the address registers (R146): every address register takes its stride. -/
def addStrides (l n : Nat) (r : Regs) : Nat → Regs
  | 0 => r
  | i + 1 => (addStrides l n r i).wa i ((addStrides l n r i).ra i + BitVec.ofNat 57 n * (addStrides l n r i).rstr i l)
/-- The loop step of R146 from level `l` on: the registers, and the next offset. -/
def loopStepFrom (r : Regs) (next : Nat) : List Nat → Regs × Nat
  | [] => (r, next)
  | l :: rest =>
    let v := r.loop l
    if !v.act then loopStepFrom r next rest
    else if v.exit ≠ next then (r, next)
    else
      let r := addStrides l 1 r 16
      let v := { v with remain := v.remain - 1, index := v.index + 1 }
      if v.remain > 0 then ({ r with loops := r.loops.set l v }, v.start)
      else loopStepFrom { r with loops := r.loops.set l { v with act := false } } next rest
def loopStep (r : Regs) (next : Nat) : Regs × Nat := loopStepFrom r next [0, 1, 2, 3]

/-- A `LOOP` entry takes place (R42, R145): the count, start, exit and first index were latched at issue. -/
def enterLoop (r : Regs) (l : Nat) : Regs :=
  let v := r.loop l
  if v.remain = 0 then { r with pc := v.exit }
  else { addStrides l v.index r 16 with loops := r.loops.set l { v with act := true }, pc := v.start }
/-- `LOOP.end l` (R147). -/
def clearLoops (r : Regs) : Nat → Regs
  | 0 => { r with loops := r.loops.set 0 { r.loop 0 with act := false } }
  | l + 1 => { clearLoops r l with loops := (clearLoops r l).loops.set (l + 1) { r.loop (l + 1) with act := false } }

/-- A transfer that takes place (R120, R145, R147); an `ENDK` is left due, for the boundary to end the task. -/
def transfer (r : Regs) : PendKind → Regs
  | .jump t => { r with pc := t }
  | .untaken => r
  | .loopEnter l => enterLoop r l
  | .loopEnd l => clearLoops r l
  | .endk => { r with pend := some ⟨.endk, 0⟩ }
  | .eret => r
/-- After `ERET` a transfer recorded with no delay bundle left takes place (R256; DEDUCED, log entry 13). -/
def afterReturn (r : Regs) : Regs :=
  match r.pend with
  | some ⟨kind, 0⟩ => transfer { r with pend := none } kind
  | _ => r
/-- The bundle is complete: loop step, delay count, transfer (R120, R146).  The loop step of a second delay bundle comes before its
transfer, that of `LOOP.end` too (DESIGN CHOICE, log entry 65). -/
def complete (s : State) (c x len : Nat) : State :=
  let r := (s.ctx c x).regs
  let st := loopStep { r with rep := 0, idleLeft := 0 } (r.pc + len)
  let r' := { st.1 with pc := st.2 }
  let put := fun (q : Regs) => s.modRegs c x fun _ => q
  match r.pend with
  | none => put r'
  | some ⟨kind, n⟩ =>
    if n > 1 then put { r' with pend := some ⟨kind, n - 1⟩ }
    else
      let s := put (transfer { r' with pend := none } kind)
      if kind = .eret then (s.modCtx c x returnFrom).modRegs c x afterReturn else s

/-- The boundary after an issue: LTIME moves on, results settle, the bundle completes at its last repetition, and a segment
commits when its rendezvous does (R47, R111). -/
def advance (s : State) (c x : Nat) (h : Head) : State :=
  let q := (s.ctx c x).regs.rep
  let s := settle s c x
  if q < h.rep then s.modRegs c x fun r => { r with rep := q + 1 }
  else complete (if h.rdv then commitSegment s c x else s) c x h.len

/-- A `TRAP` request is taken after its bundle (R154), also at the boundary where the task would end (DEDUCED, log entry 13). -/
def userTrap (s : State) (c x : Nat) (at_ : Where) (code : Nat) : State :=
  takeCause s c x 2 { code := 0x06, slot := 0, tcode := code } at_

/-- A bundle that cannot go on: the cause, or the rewind of an open segment (R326). -/
def stopBundle (s : State) (c x slot : Nat) (e : Stop) : State :=
  let k := s.ctx c x
  let at_ : Where := ⟨k.regs.ltime, k.regs.pc, slot, k.regs.rep⟩
  match e with
  | .trap q =>
    let s := if q.code = 0x36 ∧ q.info1 / 256 = 1 then markLine s (dieOf c) (q.info0 / 64) else s
    takeCause s c x 0 q { at_ with slot := q.slot }
  | .consume line va =>
    match k.seg with
    | some g => if g.chain.contains line then takeCause s c x 0 (poisonCause line va false true slot) at_ else rewindNow s c x (some line) false
    | none => takeCause s c x 0 (poisonCause line va false false slot) at_
  | .later q => defer s c x q at_
  | .refused ga va => takeCause (s.exchange ga) c x 0 { code := 0x01, slot := slot, addr := va } at_

/-- Energy of syllables that the ballast estimate of a cluster sees (R337). -/
def noteIssued (s : State) (c w : Nat) : State :=
  if c ≥ 512 then s
  else { s with power := { s.power with issued := s.power.issued.put 0 (cluOf c) (s.power.issued.get 0 (cluOf c) + w) } }
/-- The segment's own first bundle has issued again after a rewind (R47). -/
def Ctx.reissued (q : Ctx) : Option Segment :=
  q.seg.map fun g => if q.regs.pc = g.shadow.pc then { g with reissue := false } else g
/-- The committed issue. -/
def commit (s : State) (c x : Nat) (h : Head) (mk : Syl → Iss) (syls : List Syl) (s1 : State) : State :=
  let k := s.ctx c x
  let at_ : Where := ⟨k.regs.ltime, k.regs.pc, 0, k.regs.rep⟩
  let w := issueCharge mk s ((s.core c).curOf x) syls
  let s1 := (if syls.isEmpty then s1 else noteIssued s1 c w).charge c x w
  let s1 := s1.modCtx c x fun q => { q with
    stepPending := q.stepPending && !q.stepping
    seg := q.reissued
    regs := keepSyls mk q.regs syls }
  let s2 := advance s1 c x h
  let s2 := match syls.findSome? (fun y => y.op.bind (·.user)) with
    | some code => userTrap s2 c x at_ code
    | none => s2
  let s2 := endIfDue s2 c x
  match (s2.ctx c x).dep with
  | some d => if (s2.ctx c x).status = .ready then freeze s2 c x d else s2
  | none => s2

/-- A residue failure of this issue's slot, as the environment gives it (R327): the slot whose result fails its check, and the
lowest lane or accumulator row that does. -/
def residueOf (s : State) (c x : Nat) (syls : List Syl) : Option (Nat × Nat) :=
  (s.residue.find? fun f => f.1 == c && f.2.1 == x && syls.any fun y => y.slot == f.2.2.1).map fun f => f.2.2
/-- What a residue failure does (R327, R328): a rewind once in a segment chain, else the residue fault. -/
def residueStop (s : State) (c x slot lane : Nat) : State :=
  let s := { s with residue := s.residue.filter fun f => !(f.1 == c && f.2.1 == x) }
  let s := s.modCore c fun h => { h with ras := h.ras.set 3 (satCount (h.ras.get 0 3)) }
  let k := s.ctx c x
  let at_ : Where := ⟨k.regs.ltime, k.regs.pc, slot, k.regs.rep⟩
  match k.seg with
  | some g =>
    if g.residue = 0 then rewindNow s c x none true
    else takeCause s c x 0 { code := 0x38, slot := slot, info0 := slot, info1 := lane, info2 := 1 } at_
  | none => takeCause s c x 0 { code := 0x38, slot := slot, info0 := slot, info1 := lane } at_

/-- The effects of a bundle whose dependences are met. -/
def perform (s : State) (c x : Nat) (h : Head) (mk : Syl → Iss) (syls : List Syl) : State :=
  let k := s.ctx c x
  let s0 := if h.seg && k.regs.rep == 0 && k.regs.idleLeft == 0 && k.seg.isNone then openSegment s c x else s
  match runAll mk s0 syls with
  | .error (slot, e) => stopBundle (match e with | .trap _ => s | _ => s0) c x slot e
  | .ok s1 =>
    match residueOf s c x syls with
    | some f => residueStop s0 c x f.1 f.2
    | none => commit s c x h mk syls s1

/-- The issue of a bundle by a context that stands ready on its core (R31, R118). -/
def issue (s : State) (c x : Nat) (h : Head) (syls : List Syl) (bnd : List (Nat × Bound)) : State :=
  let k := s.ctx c x
  match breakCause k syls with
  | some q => takeCause s c x 0 q ⟨k.regs.ltime, k.regs.pc, q.slot, k.regs.rep⟩
  | none =>
    if illegalBundle s c x h syls then stopBundle s c x 15 (.trap { code := 0x02 })
    else match syls.findSome? (sylFault s c x) with
      | some q => stopBundle s c x q.slot (.trap q)
      | none =>
        let mk := mkIss s c x h syls bnd
        match firstDep s mk syls with
        | some d => freeze s c x d
        | none => perform s c x h mk syls

/-- A breakpoint of a bundle that breaks R108, else its illegal-bundle trap (R118). -/
def illegalStop (s : State) (c x : Nat) (syls : List Syl) : State :=
  let k := s.ctx c x
  match breakCause k syls with
  | some q => takeCause s c x 0 q ⟨k.regs.ltime, k.regs.pc, q.slot, k.regs.rep⟩
  | none => stopBundle s c x 15 (.trap { code := 0x02 })

/-- A bundle that cannot be had: the illegal bundle comes after a breakpoint, a fetch fault before it (R118).  A peer's answer that is
poison or a refusal is a response too (R311). -/
def fetchStop (s : State) (c x : Nat) (syls : List Syl) (e : Stop) : State :=
  match e with
  | .trap q => if q.code = 0x02 then illegalStop s c x syls else stopBundle s c x 15 e
  | .consume line _ => stopBundle (s.exchange (64 * line)) c x 15 e
  | _ => stopBundle s c x 15 e

/-- The context that may issue on a core: active, ready, with its deferred causes taken, the rails at its gear, and the core
not in a gear change or halted (R39, R105, R331). -/
def issuer (s : State) (c : Nat) : Option Nat :=
  let k := s.core c
  match k.active with
  | none => none
  | some x =>
    let q := k.ctxs.get Ctx.reset x
    if q.status = .ready ∧ q.deferred = [] ∧ k.changing = none ∧ k.rails = k.curOf x ∧ k.halted = false then some x else none

/-- The syllable of an instruction that issues alone. -/
def soleSyl (s : State) (c x : Nat) (i : Instr) (o : Op) : Syl :=
  let we := (i.encode).getD (0, none)
  { slot := i.slot, k := 0, word := we.1, ext := we.2, dict := none, off := (s.ctx c x).regs.pc, own := true, op := some o }
def soleHead (i : Instr) : Head :=
  let we := (i.encode).getD (0, none)
  { len := 8 + 4 * we.2.toList.length, rep := 0, seg := false, rdv := false, stk := false, dict := none }

/-- The meaning of a syllable instruction: the core whose turn it is issues it as a bundle of its own. -/
def issueOne (i : Instr) (o : Op) (s : State) : Host.Outcome State Fault Refusal :=
  match issuer s s.cur with
  | none => .next s
  | some x => .next (issue s s.cur x (soleHead i) [soleSyl s s.cur x i o] [])

end Sys2Proof.Machine
end

