-- ==== Sys2Proof/Machine/Operands.lean ====
section
/-!
DEFINITION. The operand forms the meanings share: guards and immediates of the S slot (R131, R132), register-or-extension
operands of the other slots, memory operands of the L slot (R159, R112), completion words (R168), the task's cores (R150).
-/

namespace Sys2Proof.Machine

open Sys2Proof

abbrev Out := Host.Outcome State Fault Refusal

/-- A guard holds (R131). -/
def guard (r : Regs) (p : Nat) (pn : Bool) : Bool := r.rp p ^^ pn
/-- The second source of an S-slot instruction (R132). -/
def src2 (r : Regs) (e : Option Nat) (b : Nat) : Word :=
  match e with
  | some x => sext32 x
  | none => r.rg b
/-- A register, or the sign-extended extension word in its place. -/
def gOrSext (r : Regs) (e : Option Nat) (g : Nat) : Word := src2 r e g
/-- A register, or the zero-extended extension word in its place. -/
def gOrZext (r : Regs) (e : Option Nat) (g : Nat) : Word :=
  match e with
  | some x => BitVec.ofNat 64 (x % 2 ^ 32)
  | none => r.rg g

/-- The address of an L-slot operand (R159): base plus offset in units, or plus the extension in bytes, plus the step of a
sticky re-issue (R112), wrapped to 57 bits. -/
def memAddr (i : Iss) (e : Option Nat) (an off offBits unit step : Nat) : Nat :=
  let base : Int := (i.regs.ra an).toNat
  let o : Int := match e with
    | some x => sgn x 32
    | none => sgn off offBits * unit
  wrapI (base + o + (i.k * step : Nat)) 57

/-- `n` bytes lie in the issuing core's scratchpad; a housekeeping core has none (R14, R254). -/
def Iss.inOwn (i : Iss) (va n : Nat) : Bool := decide (i.core < 512) && inScratch va n
/-- A byte of the window that no memory stands behind, or none granted (R80, R160); an address of 2^57 or more in a general register is
taken for one (DESIGN CHOICE, log entry 86). -/
def Iss.hole (i : Iss) (s : State) (va : Nat) : Bool :=
  !i.inOwn va 1 && (decide (va ≥ 2 ^ 57) || (inWindow va &&
    (match windowXl s (s.partOf i.core) i.core (va - windowBase) with | .ok _ => false | .error _ => true)))
/-- The window fault of an address that names no memory, or none granted (R80). -/
def holeCheck (i : Iss) (s : State) (va : Nat) : Except Stop Unit := if i.hole s va then i.trap 0x11 va else .ok ()

/-- A completion word's fields (R168), with the stamp's address and value. -/
def cword (i : Iss) (w : Word) : CWord :=
  let v := w.toNat
  { phase := bits v 32 32, bar := bits v 21 11, ba := bit v 20, st := bit v 19, scope := bits v 16 3, tset := bits v 13 3,
    saddr := i.regs.saddr, val := (i.ltime + 1) % 2 ^ 64, ar := none, sr := none, wait := [] }
/-- SZL of a completion word. -/
def cwordSzl (w : Word) : Nat := bits w.toNat 0 4

/-- Peers that an arrival for the whole task goes to: the modules of the partition's peer table, where the task belongs to a launch
group (R150, R300; DESIGN CHOICE, log entry 34). -/
def taskPeers (s : State) (p group tset : Nat) : List Nat :=
  if tset ≠ 4 ∨ group = 0 then [] else ((s.part p).cfg.peers.filter fun e => e.2.1 == 1).map (·.1)
/-- Cores of the task on this module that a target set names (R150); the core mask or number of sets 5 and 6 is `x`. -/
def targetCores (s : State) (c task tset x : Nat) : List Nat :=
  let all := (c :: s.taskCores task).eraseDups
  match tset with
  | 0 => [c]
  | 1 => all.filter fun d => cluOf d == cluOf c
  | 2 => all.filter fun d => dieOf d == dieOf c
  | 3 => all
  | 4 => all
  | 5 => [x % 2 ^ 9]
  | _ => (List.range 8).filterMap fun j => if bit x j then some (8 * cluOf c + j) else none
/-- A core runs the task (R150). -/
def runsTask (s : State) (c task d : Nat) : Bool := d == c || (s.taskCores task).contains d

/-- A completion word that breaks R168, where SZL may reach `maxSzl`. -/
def cwordBad (i : Iss) (w : Word) (maxSzl : Nat) : Bool :=
  let v := w.toNat
  bits v 4 9 != 0 || decide (cwordSzl w > maxSzl) || decide (bits v 16 3 > 5) || decide (bits v 13 3 > 4) ||
  (bit v 19 && i.regs.saddr % 8 != 0)
/-- The completion word of a `g` register, or the transfer-control fault; a stamp's address may also take the window fault (R80). -/
def readCword (i : Iss) (s : State) (c maxSzl : Nat) : Except Stop CWord :=
  let w := i.regs.rg c
  if cwordBad i w maxSzl then i.trap 0x1C
  else if (cword i w).st && i.hole s i.regs.saddr then i.trap 0x11 i.regs.saddr
  else .ok (cword i w)

/-- Class 10 energy of bytes written by an operation: whole 64-byte units (R339). -/
def copyCharge (n : Nat) : Nat := (n + 63) / 64 * 40
/-- Class 11 energy of bytes sent over a port. -/
def fabricCharge (n : Nat) : Nat := (n + 63) / 64 * 300

/-- The syllable's default energy class by slot (R338). -/
def slotClass (i : Iss) (_ : State) : Nat :=
  match i.slot with
  | 3 => 1 | 4 => 2 | 8 => 2 | 5 => 3 | 6 => 3 | 7 => 5 | 9 => 9 | _ => 0

end Sys2Proof.Machine
end

