-- ==== Sys2Proof/Machine/Address.lean ====
section
/-!
DEFINITION. The A slot (R141, R142): address registers and strides, with exact arithmetic wrapped modulo 2^57.
-/

namespace Sys2Proof.Machine

open Sys2Proof

/-- A 64-bit signed quantity in address arithmetic (R141). -/
def toVA (x : Word) : VAddr := BitVec.ofInt 57 x.toInt
/-- Strides of one address register written one after the other. -/
def emitStrides (i : Iss) (ad : Nat) (f : Nat → VAddr) (s : State) : State :=
  i.emit 1 (.stride ad 3 (f 3)) (i.emit 1 (.stride ad 2 (f 2)) (i.emit 1 (.stride ad 1 (f 1)) (i.emit 1 (.stride ad 0 (f 0)) s)))

/-- AMOV (R142): with STR the four strides too. -/
def opAmov (ad as : Nat) (str : Bool) : Op :=
  { cls := slotClass
    run := fun i s =>
      let s := i.emit 1 (.a ad (i.regs.ra as)) s
      .ok (if str then emitStrides i ad (i.regs.rstr as) s else s) }
def opAadd (e : Option Nat) (ad as gn : Nat) : Op :=
  { cls := slotClass, run := fun i s => .ok (i.emit 1 (.a ad (i.regs.ra as + toVA (gOrSext i.regs e gn))) s) }
def opAldi (e : Option Nat) (ad gn imm : Nat) : Op :=
  { cls := slotClass
    run := fun i s =>
      let c : Int := match e with | some x => sgn x 32 | none => sgn imm 14
      .ok (i.emit 1 (.a ad (toVA (i.regs.rg gn) + BitVec.ofInt 57 c)) s) }
def opAstr (e : Option Nat) (ad lvl gn : Nat) : Op :=
  { cls := slotClass, run := fun i s => .ok (i.emit 1 (.stride ad lvl (toVA (gOrSext i.regs e gn))) s) }
/-- AGET (R142): an address zero-extended, or a stride sign-extended. -/
def opAget (d as : Nat) (ss : Bool) (lvl : Nat) : Op :=
  { cls := slotClass
    run := fun i s => .ok (i.emit 1 (.g d
      (if ss then (i.regs.rstr as lvl).signExtend 64 else (i.regs.ra as).setWidth 64)) s) }
/-- Registers of an ACLR mask, from register `n - 1` down (R142). -/
def clearMask (i : Iss) (mask : Nat) (adr : Bool) : Nat → State → State
  | 0, s => s
  | n + 1, s =>
    let s := clearMask i mask adr n s
    if bit mask n then
      let s := emitStrides i n (fun _ => 0) s
      if adr then i.emit 1 (.a n 0) s else s
    else s
def opAclr (mask : Nat) (adr : Bool) : Op :=
  { cls := slotClass, run := fun i s => .ok (clearMask i mask adr 16 s) }

def execAmov (ad as : Nat) (str : Bool) (s : State) : Out := issueOne (.amov ad as str) (opAmov ad as str) s
def execAadd (e : Option Nat) (ad as gn : Nat) (s : State) : Out := issueOne (.aadd e ad as gn) (opAadd e ad as gn) s
def execAldi (e : Option Nat) (ad gn imm : Nat) (s : State) : Out := issueOne (.aldi e ad gn imm) (opAldi e ad gn imm) s
def execAstr (e : Option Nat) (ad lvl gn : Nat) (s : State) : Out := issueOne (.astr e ad lvl gn) (opAstr e ad lvl gn) s
def execAget (d as : Nat) (ss : Bool) (lvl : Nat) (s : State) : Out := issueOne (.aget d as ss lvl) (opAget d as ss lvl) s
def execAclr (mask : Nat) (adr : Bool) (s : State) : Out := issueOne (.aclr mask adr) (opAclr mask adr) s

end Sys2Proof.Machine
end

