-- ==== Sys2Proof/Machine/Branch.lean ====
section
/-!
DEFINITION. The B slot at every level (R143 to R158): branches, hardware loops, barriers, monitors, gears, traps, deadlines,
the end of a task and launches.
-/

namespace Sys2Proof.Machine

open Sys2Proof

/-- A transfer after two delay bundles (R120): the control bundle itself counts one more. -/
def pendTo (i : Iss) (k : PendKind) (s : State) : State :=
  s.modRegs i.core i.ctx fun r => { r with pend := some ⟨k, 3⟩ }
/-- `PC + 4 * sext(OFF)` (R143); a target below 0 stays outside every text. -/
def relTarget (i : Iss) (off n : Nat) : Nat := wrapI (i.pc + 4 * sgn off n) 64
/-- Length of the bundle at an offset; 4 where none can be fetched (DEDUCED, log entry 20). -/
def lenAt (s : State) (i : Iss) (off : Nat) : Nat :=
  match fetchBundle s i.core i.ctx off with
  | .ok b => bundleLen b
  | .error _ => 4
/-- Offset of the bundle after the second delay bundle (R143, R145). -/
def afterDelay (s : State) (i : Iss) : Nat :=
  let a := i.next + lenAt s i i.next
  a + lenAt s i a

def opNop : Op := { run := fun _ s => .ok s }
def opBr (off : Nat) : Op := { ctl := true, run := fun i s => .ok (pendTo i (.jump (relTarget i off 24)) s) }
def opBrp (p : Nat) (pn : Bool) (off : Nat) : Op :=
  { ctl := true
    run := fun i s => .ok (pendTo i (if guard i.regs p pn then .jump (relTarget i off 18) else .untaken) s) }
def opBrr (a : Nat) : Op := { ctl := true, run := fun i s => .ok (pendTo i (.jump (i.regs.rg a).toNat) s) }
def opCall (link off : Nat) : Op :=
  { ctl := true
    run := fun i s => .ok (i.emit 1 (.g link (BitVec.ofNat 64 (afterDelay s i))) (pendTo i (.jump (relTarget i off 18)) s)) }
def opRet (a : Nat) : Op := { ctl := true, run := fun i s => .ok (pendTo i (.jump (i.regs.rg a).toNat) s) }

/-! ### Hardware loops (R41 to R43, R145, R147) -/

/-- Kind of a level in the kernel's loop table (R41). -/
def loopKind (k : Ctx) (l : Nat) : Nat := bits k.info.ltab (2 * l) 2
/-- A level's first index and count for a core (R42). -/
def loopShare (k : Ctx) (l n : Nat) : Nat × Nat :=
  let share := fun (rank ranks : Nat) => (rank * n / ranks, (rank + 1) * n / ranks - rank * n / ranks)
  match loopKind k l with
  | 1 => share k.info.kcore k.info.nc
  | 2 => share k.info.kdie k.info.nd
  | _ => (0, n)
/-- The loop-table trap's condition (R43). -/
def loopTableBad (k : Ctx) (l : Nat) : Bool :=
  let act := [0, 1, 2, 3].filter fun m => (k.regs.loop m).act
  match loopKind k l with
  | 1 => act.any fun m => loopKind k m == 0
  | 2 => act.any fun m => m != l
  | _ => false
/-- The loop-nest trap's conditions (R145). -/
def loopNestBad (k : Ctx) (l start exit : Nat) : Bool :=
  ([0, 1, 2, 3].any fun m => decide (m ≤ l) && (k.regs.loop m).act) || decide (exit ≤ start) ||
  ([0, 1, 2, 3].any fun m => decide (m > l) && (k.regs.loop m).act && decide ((k.regs.loop m).exit < exit))
/-- A syllable is a `LOOP` that begins a loop. -/
def isLoop (t : Nat × Nat × Option Nat) : Bool :=
  match decodeSyl t.1 t.2.1 t.2.2 with | .ok (.loop ..) => true | _ => false
/-- A bundle contains `LOOP`; so does a dictionary entry that cannot be had. -/
def holdsLoop (s : State) (i : Iss) : Instr → Bool
  | .bundleIssue _ _ _ _ syls => syls.any isLoop
  | .dictionaryReference _ _ _ _ idx =>
    (match fetchEntry s i.core i.ctx idx with | .ok syls => syls.any isLoop | .error _ => true)
  | _ => false
/-- A body from an offset to its exit has at most `n` bundles and contains no `LOOP` (R121). -/
def pinnable (s : State) (i : Iss) (exit : Nat) : Nat → Nat → Bool
  | 0, off => off == exit
  | n + 1, off => off == exit || (decide (off < exit) && match fetchBundle s i.core i.ctx off with
    | .ok b => !holdsLoop s i b && pinnable s i exit n (off + bundleLen b)
    | .error _ => false)
/-- A body is pinned, or stays so; any other goes (R121; DESIGN CHOICE, log entry 83). -/
def Core.pinBody (start exit : Nat) (k : Core) : Core :=
  match k.pin with
  | some (a, b, _) => if a = start ∧ b = exit then k else { k with pin := some (start, exit, []) }
  | none => { k with pin := some (start, exit, []) }
/-- LOOP with END not 0 (R145), with its pin request (R121). -/
def opLoop (lvl lcn : Nat) (pin : Bool) (off : Nat) : Op :=
  { ctl := true
    run := fun i s =>
      let start := afterDelay s i
      let exit := i.pc + 4 * off
      if loopTableBad i.me lvl then i.trap 0x0D
      else if loopNestBad i.me lvl start exit then i.trap 0x0E
      else
        let sh := loopShare i.me lvl (i.regs.rlc lcn)
        let s := if pin && pinnable s i exit 64 start then s.modCore i.core (Core.pinBody start exit) else s
        .ok (pendTo i (.loopEnter lvl) (s.modRegs i.core i.ctx fun r =>
          { r with loops := r.loops.set lvl ⟨false, sh.2, start, exit, sh.1⟩ })) }
def opLoopEnd (lvl : Nat) : Op := { ctl := true, run := fun i s => .ok (pendTo i (.loopEnd lvl) s) }
/-- ENDK (R156): inside an open segment only in the rendezvous bundle. -/
def opEndk : Op :=
  { ctl := true, run := fun i s => if i.inSeg && !i.rdv then i.trap 0x0F else .ok (pendTo i .endk s) }

/-! ### Barriers and monitors (R149 to R152) -/

/-- The barrier-broken trap (R149, R263). -/
def barrierCause (i : Iss) (bar phase : Nat) (unarmed : Bool) : Cause :=
  { code := 0x16, slot := i.slot, info0 := unarmed.toNat + bar * 2 ^ 16, info1 := phase }
/-- BWAIT (R149): the dependence of R90, and the acquire of R98. -/
def opBwait (e : Option Nat) (bar gn : Nat) : Op :=
  { wait := fun i s =>
      let b := (s.core i.core).bars.get Barrier.start bar
      let n := (gOrZext i.regs e gn).toNat % 2 ^ 32
      if b.brk then .trap (barrierCause i bar n false)
      else if b.exp = 0 then .trap (barrierCause i bar n true)
      else if b.met n then .ok else .dep (.barrier bar n)
    run := fun i s => .ok (s.modCore i.core fun k => { k with k := mergeVec (k.bars.get Barrier.start bar).kv k.k }) }

/-- Starts the arrival of a release (R89): after every earlier access of the context, and after its earlier arrivals. -/
def postArrival (i : Iss) (s : State) (bar phase : Nat) (cores : List Nat) (r : Rel) : State :=
  let arrivals := ((s.mine i.core i.ctx).filter fun a => match a.kind with | .arrive .. => true | _ => false).map (·.id)
  s.post (mkOp s i.core i.ctx i.at_ (allBefore s i.core i.ctx ++ arrivals) (.arrive bar phase cores r none))
/-- Arrivals of an operation to the cores of the task on other modules, in issue order to each peer (R89, R150). -/
def postSignals (b : Async) (group bar phase : Nat) : List Nat → State → State
  | [], s => s
  | peer :: rest, s =>
    let first := fun (a : Async) => (b.ord == 0 || decide (a.ord < b.ord)) && (match a.kind with | .signal p .. => p == peer | _ => false)
    let earlier := ((s.mine b.core b.ctx).filter first).map (·.id)
    postSignals b group bar phase rest (s.post { b with after := b.after ++ earlier, kind := .signal peer group bar phase })
/-- A barrier arrival and a stamp write act as a VJOIN for the context's writes (R87): that of `BARV` and `STAMP` at their issue cycle, for
reads of later bundles (DESIGN CHOICE, log entry 84). -/
def noteJoin (i : Iss) (s : State) : State := s.modRegs i.core i.ctx fun r => { r with vjoins := i.lt :: r.vjoins }
/-- A release of a scope at this issue (R103), or the join-count trap. -/
def Iss.release (i : Iss) (scope : Nat) (s : State) : Except Stop (State × Rel) :=
  match Machine.release s i.core scope with
  | some r => .ok r
  | none => i.trap 0x19

/-- The completion word of an operation. -/
def OpK.cword : OpK → Option CWord
  | .copy _ _ cw _ _ => some cw
  | .mcast _ _ _ _ _ cw _ => some cw
  | .nmcmd _ cw _ _ => some cw
  | .coll _ cw _ _ => some cw
  | .tlbinv _ _ cw => some cw
  | .save _ _ _ _ _ cw => some cw
  | .load _ _ _ _ cw => some cw
  | _ => none
def CollDesc.size (d : CollDesc) : Nat := if d.fmt = 8 then 2 else 4
/-- Bytes a rank receives. -/
def CollDesc.dstBytes (d : CollDesc) : Nat :=
  d.size * (match d.op with | 1 => d.count / d.nrank | 2 => d.count * d.nrank | _ => d.count)
/-- Bytes that a rank reads of its source: those of a broadcast are the root's. -/
def CollDesc.srcBytes (d : CollDesc) : Nat := if d.op = 3 ∧ d.rank ≠ d.root then 0 else d.count * d.size
/-- The largest image of a context, and of a core (R258, R268). -/
def imageMax (core : Bool) : Nat := if core then 6443008 else 471040
/-- Virtual addresses by which an operation's own accesses reach memory: of a range one in each 64 KiB page. -/
def OpK.touches : OpK → List Nat
  | .store bytes => (bytes.take 1).map (·.1)
  | .stamp va _ _ => [va]
  | .arrive _ _ _ _ (some (va, _, _)) => [va]
  | .atom _ va _ _ _ _ _ _ => [va]
  | .copy elems _ _ _ _ => elems.flatMap fun e => e.dst :: e.src.toList
  | .mcast src _ n _ _ _ _ => pageStarts src n
  | .coll d _ _ _ => pageStarts d.src d.srcBytes ++ pageStarts d.dst d.dstBytes
  | .monRead _ va => [va]
  | .nmcmd d _ _ _ => if d.stat = 0 then [] else [d.stat]
  | .save core _ _ va _ _ => pageStarts va (imageMax core)
  | .load core _ _ va _ => pageStarts va (imageMax core)
  | _ => []
/-- The same with the place of the stamp that its completion word asks for. -/
def OpK.reaches (k : OpK) : List Nat := k.touches ++ ((k.cword.filter (·.st)).map (·.saddr)).toList
/-- A release copy writes a page's home. -/
def OpK.isRelease : OpK → Bool
  | .tlbinv 2 _ _ => true
  | _ => false
/-- An address leads to peer or shelf memory, or nowhere yet. -/
def leadsFar (s : State) (p c va : Nat) : Bool :=
  !inWindow va && (match pagedXl s p c va with | .ok x => x.cls == 5 || x.cls == 6 | .error _ => true)
/-- Earlier operations of the context with accesses to peer or shelf memory: their own, those of a monitor, a status, an image, a stamp or
a release copy (R319). -/
def farBefore (s : State) (c x : Nat) : List Nat :=
  ((s.mine c x).filter fun a => a.unacked || a.kind.isRelease || a.kind.reaches.any (leadsFar s a.part c)).map (·.id)
/-- The releases that the arrival and the stamp of a completion word make, counted at the issue (R103); of domain scope they wait
for the accesses to peer and shelf memory that stand before them (R319), and a stamp in HBM4 for the NMFENCEs before it (R96). -/
def Iss.cwRelease (i : Iss) (w : CWord) (s : State) : Except Stop (State × CWord) := do
  let far := if w.scope = 5 then farBefore s i.core i.ctx else []
  let w := { w with wait := far ++ (if w.st then nmFenced s i.core i.ctx [w.saddr] else []) }
  let (s, w) ← if w.ba then (do
      let (s, r) ← i.release w.scope s
      pure (s, { w with ar := some r })) else pure (s, w)
  if w.st then (do
      let (s, r) ← i.release w.scope s
      pure (s, { w with sr := some r })) else pure (s, w)

/-- BARV (R150); a target set in breach is reported before the segment rule, in the order of R150's text (DESIGN CHOICE, log entry 24). -/
def opBarv (e : Option Nat) (bar gn scope tset : Nat) : Op :=
  { run := fun i s => do
      let t := i.me.info
      let cores := targetCores s i.core t.task tset (e.getD 0)
      let phase := (i.regs.rg gn).toNat % 2 ^ 32
      if cores.isEmpty || !(cores.all (runsTask s i.core t.task)) then i.trap 0x17
      else do
        i.outward
        let (s, r) ← i.release scope s
        let before := allBefore s i.core i.ctx
        let s := postArrival i s bar phase cores r
        let base := mkOp s i.core i.ctx i.at_ before (.signal 0 0 0 0)
        .ok (noteJoin i (postSignals base t.group bar phase (taskPeers s (s.partOf i.core) t.group tset) s)) }
/-- BINIT (R151): performed at issue. -/
def opBinit (e : Option Nat) (bar gn : Nat) : Op :=
  { run := fun i s => do
      i.outward
      .ok (s.modCore i.core fun k => armBarrier k bar ((gOrZext i.regs e gn).toNat % 2 ^ 16)) }
/-- MONWAIT (R152, R92). -/
def opMonwait (e : Option Nat) (mon gn : Nat) : Op :=
  { wait := fun i s =>
      let m := (s.ctx i.core i.ctx).mons.get Monitor.start mon
      let v := (gOrZext i.regs e gn).toNat
      if !m.armed then .ok
      else match m.value with
        | some x => if x ≥ v then .ok else .dep (.monitor mon v)
        | none => .dep (.monitor mon v)
    run := fun i s =>
      let m := (s.ctx i.core i.ctx).mons.get Monitor.start mon
      if !m.armed then i.trap 0x18 else .ok (acquireOpt s i.core m.from_) }

/-! ### Gears, traps, deadlines, launches (R153 to R157) -/

def opGear (gr : Nat) : Op := { run := fun i s => .ok (s.modCtx i.core i.ctx fun k => { k with gearReq := gr % 4 }) }
def opGearReg (gn : Nat) : Op :=
  { run := fun i s => .ok (s.modCtx i.core i.ctx fun k => { k with gearReq := (i.regs.rg gn).toNat % 4 }) }
/-- TRAP (R154): the request is taken at the boundary after its bundle. -/
def opTrap (code : Nat) : Op := { user := some code, run := fun _ s => .ok s }
/-- BRK (R154): judged with the breakpoints, before anything commits. -/
def opBrk (code : Nat) : Op := { brk := some code, run := fun _ s => .ok s }
/-- DLCHK (R155): PTIME is sampled at the issue. -/
def opDlchk (pd gn : Nat) (t : Bool) : Op :=
  { run := fun i s =>
      let now := s.now % 2 ^ 64
      let lim := (i.regs.rg gn).toNat
      if t && decide (now > lim) then
        .error (.trap { code := 0x1A, slot := i.slot, info0 := now, info1 := lim })
      else .ok (i.emit 1 (.p pd (decide (now ≤ lim))) s.sampled) }

/-- A context's intake queue of its partition (R303). -/
def intakeOf (s : State) (c x : Nat) : List IntakeE := (s.part (s.partOf c)).intake.get [] (4 * c + x)
/-- LAUNCH (R157, R303): privileged while the partition has not granted it to its kernels, which is judged with the other decode
faults (R31, R118); a misaligned address is reported before the segment rule (DESIGN CHOICE, log entry 24). -/
def opLaunch (a pri : Nat) : Op :=
  { privNow := fun s c => (s.part (s.partOf c)).pctl % 2 == 0
    wait := fun i s => if (intakeOf s i.core i.ctx).length ≥ 16 then .dep .intake else .ok
    run := fun i s => do
      let p := s.partOf i.core
      let va := (i.regs.rg a).toNat
      if va % 64 ≠ 0 then i.trap 0x1B va
      else do
        i.outward
        .ok (s.modPart p fun q => { q with
          intake := q.intake.set (4 * i.core + i.ctx) (q.intake.get [] (4 * i.core + i.ctx) ++ [⟨va, pri, i.core, i.ctx, i.lt, i.pc, i.me.info.task, i.me.info.seq, i.me.level⟩]) }) }
/-- LQSTAT (R157). -/
def opLqstat (d pri : Nat) : Op :=
  { run := fun i s =>
      let q := (s.core i.core).lq
      .ok (i.emit 1 (.g d (BitVec.ofNat 64 ((q.filter fun e => e.pri == pri).length + (32 - q.length) * 2 ^ 16))) s) }

def execNop (s : State) : Out := issueOne .nop opNop s
def execBr (off : Nat) (s : State) : Out := issueOne (.br off) (opBr off) s
def execBrp (p : Nat) (pn : Bool) (off : Nat) (s : State) : Out := issueOne (.brp p pn off) (opBrp p pn off) s
def execBrr (a : Nat) (s : State) : Out := issueOne (.brr a) (opBrr a) s
def execCall (link off : Nat) (s : State) : Out := issueOne (.call link off) (opCall link off) s
def execRet (a : Nat) (s : State) : Out := issueOne (.ret a) (opRet a) s
def execLoop (lvl lcn : Nat) (pin : Bool) (off : Nat) (s : State) : Out := issueOne (.loop lvl lcn pin off) (opLoop lvl lcn pin off) s
def execLoopEnd (lvl : Nat) (s : State) : Out := issueOne (.loopEnd lvl) (opLoopEnd lvl) s
def execEndk (s : State) : Out := issueOne .endk opEndk s
def execBwait (e : Option Nat) (bar gn : Nat) (s : State) : Out := issueOne (.bwait e bar gn) (opBwait e bar gn) s
def execBarv (e : Option Nat) (bar gn scope tset : Nat) (s : State) : Out :=
  issueOne (.barv e bar gn scope tset) (opBarv e bar gn scope tset) s
def execBinit (e : Option Nat) (bar gn : Nat) (s : State) : Out := issueOne (.binit e bar gn) (opBinit e bar gn) s
def execMonwait (e : Option Nat) (mon gn : Nat) (s : State) : Out := issueOne (.monwait e mon gn) (opMonwait e mon gn) s
def execGear (gr : Nat) (s : State) : Out := issueOne (.gear gr) (opGear gr) s
def execGearReg (gn : Nat) (s : State) : Out := issueOne (.gearReg gn) (opGearReg gn) s
def execTrap (code : Nat) (s : State) : Out := issueOne (.trap code) (opTrap code) s
def execBrk (code : Nat) (s : State) : Out := issueOne (.brk code) (opBrk code) s
def execDlchk (pd gn : Nat) (t : Bool) (s : State) : Out := issueOne (.dlchk pd gn t) (opDlchk pd gn t) s
def execLaunch (a pri : Nat) (s : State) : Out := issueOne (.launch a pri) (opLaunch a pri) s
def execLqstat (d pri : Nat) (s : State) : Out := issueOne (.lqstat d pri) (opLqstat d pri) s

end Sys2Proof.Machine
end

