-- ==== Sys2Proof/Machine/Scratch.lean ====
section
/-!
DEFINITION. Reads and writes of the issuing core's scratchpad and posted stores (R27, R82 to R87, R94, R160, R166): what they
wait for, the faults they raise, the bytes they see.
-/

namespace Sys2Proof.Machine

open Sys2Proof

/-! ### Pending transfers (R27) -/

/-- Destination granules still to be written by the context's scheduled transfers, with their due cycles. -/
def pendingGrans (s : State) (c x : Nat) : List (Nat × Gran) :=
  (s.ctx c x).regs.xfers.flatMap fun y => if y.dead then [] else (y.grans.filter fun g => !g.written).map fun g => (y.due, g)
/-- A read at cycle `t` of a granule that is due and not written waits for it. -/
def readWait (i : Iss) (s : State) (gas : List Nat) : Wait :=
  match (pendingGrans s i.core i.ctx).find? (fun p => decide (p.1 ≤ i.lt) && gas.any fun ga => ga / 64 == p.2.base) with
  | some p => .dep (.granule p.2.base 0)
  | none => .ok
/-- A store performs two cycles after its issue: where the granule is due by then and its data have not arrived it waits for
them; data that have arrived are written first (R27, R28). -/
def storeWait (i : Iss) (s : State) (gas : List Nat) : Wait :=
  match (pendingGrans s i.core i.ctx).find? (fun p =>
    (decide (p.1 ≤ i.lt) || (decide (p.1 ≤ i.lt + 2) && p.2.left != 0)) && gas.any fun ga => ga / 64 == p.2.base) with
  | some p => .dep (.granule p.2.base 2)
  | none => .ok
/-- A C-slot source read of a granule before its due cycle (R27). -/
def fillOrderBad (i : Iss) (s : State) (gas : List Nat) : Bool :=
  (pendingGrans s i.core i.ctx).any fun p => decide (p.1 > i.lt) && gas.any fun ga => ga / 64 == p.2.base

/-! ### Views (R84 to R87) -/

/-- The last write of the context's own engines that covers a byte. -/
def lastWrite (r : Regs) (ga : Nat) : Option Recent :=
  r.recent.reverse.find? fun e => decide (e.ga ≤ ga ∧ ga < e.ga + e.len)
/-- A read at the issue cycle breaks the view-order rule on some byte (R87). -/
def viewBad (i : Iss) (s : State) (swz : Bool) (gas : List Nat) : Bool :=
  let r := (s.ctx i.core i.ctx).regs
  gas.any fun ga => match lastWrite r ga with
    | some e => decide (e.view < 2) && e.view != swz.toNat && decide (i.lt < e.cycle + 16) &&
        !(i.vjoin || i.regs.vjoins.any fun j => decide (e.issued < j ∧ j ≤ i.lt))
    | none => false
/-- Physical bytes of `n` bytes of the issuing core's scratchpad. -/
def Iss.gas (i : Iss) (swz : Bool) (n va : Nat) : Option (List Nat) := scratchGas swz i.me.info.zmap i.core n va

/-! ### Loads (R159, R160) -/

/-- Physical bytes of an L-slot or MFILL read that raises no fault, and nothing otherwise: what its dependence is judged on. -/
def loadGas (i : Iss) (swz : Bool) (n : Nat) : List Nat → List Nat
  | [] => []
  | va :: rest => (if i.inOwn va n then (i.gas swz n va).getD [] else []) ++ loadGas i swz n rest
def loadWait (swz : Bool) (n : Nat) (vas : Iss → List Nat) (i : Iss) (s : State) : Wait := readWait i s (loadGas i swz n (vas i))

/-- Alignment and class of every element, in order (R160, R165). -/
def loadChecks (i : Iss) (align n : Nat) : List Nat → Except Stop Unit
  | [] => .ok ()
  | va :: rest =>
    if va % align ≠ 0 then i.trap 0x13 va
    else if !i.inOwn va n then i.trap 0x12 va
    else loadChecks i align n rest
/-- One element's bytes, with the allocation-format fault, the view-order fault and the consumption of poison. -/
def loadOne (i : Iss) (s : State) (swz : Bool) (n va : Nat) : Except Stop (List Byte) :=
  match i.gas swz n va with
  | none => i.trap 0x14 va
  | some gas =>
    if viewBad i s swz gas then i.trap 0x15 va
    else match gas.find? (fun ga => s.poisoned (ga / 64)) with
      | some ga => .error (.consume (ga / 64) va)
      | none => .ok (gather s.mem gas)
def loadEach (i : Iss) (s : State) (swz : Bool) (n : Nat) : List Nat → Except Stop (List (List Byte))
  | [] => .ok []
  | va :: rest =>
    match loadOne i s swz n va, loadEach i s swz n rest with
    | .error e, _ => .error e
    | _, .error e => .error e
    | .ok b, .ok bs => .ok (b :: bs)
/-- The read of an L-slot instruction or MFILL at the addresses `vas`, `n` bytes each. -/
def loadAll (i : Iss) (s : State) (swz : Bool) (align n : Nat) (vas : List Nat) : Except Stop (List (List Byte)) :=
  match loadChecks i align n vas with
  | .error e => .error e
  | .ok _ => loadEach i s swz n vas

/-! ### Stores (R82, R94, R160) -/

/-- Byte `ga` of the own scratchpad after every store of earlier bundles, those still in flight included. -/
def ownByte (r : Regs) (mem : KV Byte) (lt ga : Nat) : Byte :=
  let hits := r.inflight.filterMap fun f => match f.res with
    | .store _ bytes => if f.iss < lt then (bytes.reverse.find? fun b => b.1 == ga).map (·.2) else none
    | _ => none
  hits.getLast?.getD (mem.get 0 ga)
/-- The 64 bytes of a granule that way. -/
def ownGran (i : Iss) (s : State) (base : Nat) : List Byte :=
  (seqFrom (64 * base) 64).map (ownByte (s.ctx i.core i.ctx).regs s.mem i.lt)
/-- Stores of this bundle leave the granules' earlier bytes on record until a FENCE (R94). -/
def noteUnfenced (i : Iss) (s : State) (bases : List Nat) : State :=
  let new := bases.map fun b => (⟨b, i.lt, ownGran i s b⟩ : Unfenced)
  s.modRegs i.core i.ctx fun r => { r with unfenced := r.unfenced ++ new }

/-- Physical bytes of those virtual bytes that lie in the own scratchpad; none is the allocation-format fault. -/
def ownCells (i : Iss) (swz : Bool) : List (Nat × Byte) → Option (List (Nat × Byte))
  | [] => some []
  | (va, b) :: rest =>
    if !i.inOwn va 1 then ownCells i swz rest
    else match i.gas swz 1 va, ownCells i swz rest with
      | some [ga], some bs => some ((ga, b) :: bs)
      | _, _ => none
def storeGas (i : Iss) (swz : Bool) (vbs : List (Nat × Byte)) : List Nat := ((ownCells i swz vbs).getD []).map (·.1)

/-- The granule parts of one access outside the own scratchpad (R83). -/
def outParts (i : Iss) (vbs : List (Nat × Byte)) : List (List (Nat × Byte)) :=
  let out := vbs.filter fun b => !i.inOwn b.1 1
  (out.map fun b => b.1 / 64).eraseDups.map fun g => out.filter fun b => b.1 / 64 == g
/-- Where a posted byte leads, by its name among all bytes. -/
def byteKey (s : State) (i : Iss) (va : Nat) : Nat :=
  match xlate s i.core i.me.level .write va with
  | .ok x => x.ga
  | .error _ => 2 ^ 100 + va
/-- The mode 3 page that a posted byte touches (R285). -/
def countedPage (s : State) (i : Iss) (va : Nat) : Option Nat :=
  match xlate s i.core i.me.level .write va with
  | .ok x => if x.mode = 3 then some x.page else none
  | .error _ => none
/-- Parts posted one after the other: each waits for what the context's earlier accesses and fences ask, and for the parts of
the same bundle that write the same bytes (R94, R95, R96, R165); the first on a page counts for the page (R285). -/
def postParts (i : Iss) (s0 : State) : State → List (Nat × List Nat) → List Nat → List (List (Nat × Byte)) → State
  | s, _, _, [] => s
  | s, done, pages, vbs :: rest =>
    let vas := vbs.map (·.1)
    let keys := vas.map (byteKey s0 i)
    let page := countedPage s0 i (vas.headD 0)
    let before := (done.filter fun d => d.2.any keys.contains).map (·.1)
    let after := fenced s0 i.core i.ctx false ++ sameGranule s0 i.core i.ctx (vas.map (· / 64)).eraseDups ++
      nmFenced s0 i.core i.ctx vas ++ before
    let a := { mkOp s i.core i.ctx i.at_ after (.store vbs) with uncounted := page.any pages.contains }
    postParts i s0 (s.post a) ((s.nextId, keys) :: done) (page.toList ++ pages) rest
/-- Bytes that go out over a port: those whose translation names a peer or the shelf (R339). -/
def farBytes (i : Iss) (s : State) (vas : List Nat) : Nat :=
  (vas.filter fun va => match xlate s i.core i.me.level .write va with | .ok x => x.cls == 5 || x.cls == 6 | .error _ => false).length

/-- The accesses of an L-slot store or scatter: own bytes perform two cycles on, the others are posted. -/
def storeAll (i : Iss) (s : State) (swz : Bool) (acc : List (List (Nat × Byte))) : Except Stop State :=
  let all := acc.flatMap id
  match all.find? (fun b => i.hole s b.1) with
  | some b => i.trap 0x11 b.1
  | none =>
    match ownCells i swz all with
    | none => i.trap 0x14 ((all.find? fun b => i.inOwn b.1 1 && (i.gas swz 1 b.1).isNone).elim 0 (·.1))
    | some own =>
      let outs := acc.flatMap (outParts i)
      if !outs.isEmpty && i.inSeg && !i.rdv then i.trap 0x0F
      else do
        let bases := unitsOf own
        let s ← i.reserve (bases.map fun b => (0, b)) s
        let s := if own.isEmpty then s else i.emit 2 (.store swz own) (noteUnfenced i s bases)
        let s := postParts i s s [] [] outs
        .ok (s.charge i.core i.ctx (fabricCharge (farBytes i s (outs.flatMap fun p => p.map (·.1)))))
/-! ### C-slot source reads (R27, R87, R94) -/

/-- Images that a granule's unfenced stores allow: newest first, then before the last store, and so on (R94). -/
def granImages (i : Iss) (s : State) (base : Nat) : List (List Byte) :=
  ownGran i s base ::
    (((s.ctx i.core i.ctx).regs.unfenced.filter fun u => u.base == base && decide (u.iss < i.lt)).reverse.map (·.old))
/-- The image each granule is read as; a granule with several takes a free choice (DESIGN CHOICE, log entry 11). -/
def chooseImages (i : Iss) : State → List Nat → State × KV (List Byte)
  | s, [] => (s, [])
  | s, base :: rest =>
    let im := granImages i s base
    let r := if im.length ≤ 1 then (s, im.headD []) else
      ({ s with tick := s.tick + 1 }, im.getD (Config.oldBytes s.tick % im.length) [])
    let q := chooseImages i r.1 rest
    (q.1, q.2.set base r.2)
/-- Bytes of the own scratchpad as a C-slot source, with the faults of R27, R85 and R87; poison is the caller's. -/
def sourceGas (i : Iss) (s : State) (n va : Nat) : Except Stop (List Nat) :=
  match i.gas true n va with
  | none => i.trap 0x14 va
  | some gas => if fillOrderBad i s gas then i.trap 0x09 va else if viewBad i s true gas then i.trap 0x15 va else .ok gas
def sourceBytes (i : Iss) (s : State) (gas : List Nat) : State × List Byte :=
  let q := chooseImages i s (gas.map (· / 64)).eraseDups
  (q.1, gas.map fun ga => (q.2.get [] (ga / 64)).getD (ga % 64) 0)
/-- A poisoned line among bytes read at the issue is consumed there (R326). -/
def consumeAt (s : State) (gas : List Nat) (va : Nat) : Except Stop Unit :=
  match gas.find? (fun ga => s.poisoned (ga / 64)) with
  | some ga => .error (.consume (ga / 64) va)
  | none => .ok ()
/-- What a C-slot source read of `n` bytes at an address waits for (R27). -/
def sourceWait (i : Iss) (s : State) (n va : Nat) : Wait :=
  if i.inOwn va n then readWait i s ((i.gas true n va).getD []) else .ok
/-- `n` bytes read at the issue, aligned, from the own scratchpad in the swizzled view. -/
def readSource (i : Iss) (s : State) (align n va : Nat) : Except Stop (State × List Byte) := do
  if va % align ≠ 0 then i.trap 0x13 va
  else if !i.inOwn va n then i.trap 0x12 va
  else
    let gas ← sourceGas i s n va
    let _ ← consumeAt s gas va
    .ok (sourceBytes i s gas)

end Sys2Proof.Machine
end

