-- ==== Sys2Proof/Machine/Copy.lean ====
section
/-!
DEFINITION. The copy sequencer of the C slot (R168 to R175): SEQLV, SEQGO, TMOV and MCAST up to the start of their copies.
-/

namespace Sys2Proof.Machine

open Sys2Proof

/-- SEQLV (R170): the new value serves bundles issued at `i + 1` and later. -/
def opSeqlv (e : Option Nat) (lvl fld gn : Nat) : Op :=
  { run := fun i s => .ok (i.emit 1 (.seqLvl lvl fld (gOrSext i.regs e gn).toNat) s) }

/-! ### Completion words -/

/-- A transfer with an arrival or a stamp stands only in the rendezvous bundle of a segment (R48). -/
def CWord.signals (w : CWord) : Bool := w.ba || w.st

/-! ### Elements (R171) -/

/-- Index vectors in lexicographic order, outermost first. -/
def indexVecs : List Nat → List (List Nat)
  | [] => [[]]
  | n :: rest => (List.range n).flatMap fun i => (indexVecs rest).map fun v => i :: v
/-- The six levels, outermost first. -/
def seqLevels (r : Regs) : List SeqLvl := [5, 4, 3, 2, 1, 0].map r.level
/-- A side's coordinates lie inside its box. -/
def inBox (org : SeqLvl → Int) (box : SeqLvl → Nat) (lv : List SeqLvl) (v : List Nat) : Bool :=
  (lv.zip v).all fun p => box p.1 == 0 || decide (0 ≤ org p.1 + (p.2 : Int) ∧ org p.1 + (p.2 : Int) < (box p.1 : Int))
/-- A side's exact address. -/
def exactAddr (base : Nat) (org str : SeqLvl → Int) (lv : List SeqLvl) (v : List Nat) : Int :=
  (lv.zip v).foldl (fun a p => a + (org p.1 + (p.2 : Int)) * str p.1) (base : Int)

/-- An element that is not suppressed: its indices, its destination, its source unless it takes FILL. -/
structure Formed where
  idx : List Nat
  dst : Int
  src : Option Int
  deriving DecidableEq, Repr
def formed (r : Regs) (dbase sbase : Nat) : List Formed :=
  let lv := seqLevels r
  (indexVecs (lv.map (·.count))).filterMap fun v =>
    if inBox (·.dorg) (·.dbox) lv v then
      some ⟨v, exactAddr dbase (·.dorg) (·.dstr) lv v,
        if inBox (·.sorg) (·.sbox) lv v then some (exactAddr sbase (·.sorg) (·.sstr) lv v) else none⟩
    else none

/-- The causes OVF, RANGE and ALIGN of an address. -/
def addrCause (a : Int) (E : Nat) : Option Nat :=
  if a < -(2 ^ 63) ∨ a ≥ 2 ^ 63 then some 0
  else if a < 0 ∨ a ≥ 2 ^ 57 then some 1
  else if a % (Nat.min E 64 : Nat) ≠ 0 then some 2
  else none
/-- Multiples of a unit inside a range, its first address left out. -/
def steps (va n unit : Nat) : List Nat :=
  (List.range ((va % unit + n - 1) / unit)).map fun j => (va / unit + j + 1) * unit
/-- The copy-address fault (R171, R263). -/
def copyFault {α : Type} (i : Iss) (f : Formed) (a : Int) (dest : Bool) (cause : Nat) : Except Stop α :=
  let n := fun l => f.idx.getD (5 - l) 0
  .error (.trap { code := 0x1D, slot := i.slot, addr := wrapI a 64, info0 := n 1 * 2 ^ 32 + n 0, info1 := n 3 * 2 ^ 32 + n 2,
                  info2 := n 5 * 2 ^ 32 + n 4, info3 := cause + (if dest then 256 else 0) })
/-- The first address of a range of the window that touches no memory, or none granted (R80): memories and grants change at
multiples of 1 MiB. -/
def rangeHole (i : Iss) (s : State) (va n : Nat) : Option Nat :=
  if n = 0 then none else (va :: steps va n (2 ^ 20)).find? fun a => i.hole s a
/-- One element's addresses, destination first; `own` is the side of the copy's first written byte. -/
def checkElem (i : Iss) (s : State) (E : Nat) (own : Bool) (f : Formed) : Except Stop Unit := do
  match addrCause f.dst E with
  | some q => copyFault i f f.dst true q
  | none =>
    let d := f.dst.toNat
    let ends := decide (i.inOwn d 1) == own && decide (i.inOwn (d + E - 1) 1) == own
    if !ends then copyFault i f f.dst true 3
    else match rangeHole i s d E with
      | some a => i.trap 0x11 a
      | none =>
        match f.src with
        | none => .ok ()
        | some a =>
          match addrCause a E with
          | some q => copyFault i f a false q
          | none => match rangeHole i s a.toNat E with
            | some h => i.trap 0x11 h
            | none => .ok ()
def checkElems (i : Iss) (s : State) (E : Nat) (own : Bool) : List Formed → Except Stop Unit
  | [] => .ok ()
  | f :: rest =>
    match checkElem i s E own f with
    | .error e => .error e
    | .ok _ => checkElems i s E own rest

/-- Up to 64 bytes of an element inside one destination granule: destination, source, length, fill bytes, whether it is not the
element's first. -/
structure Piece where
  dst : Nat
  src : Option Nat
  len : Nat
  fill : List Byte
  cont : Bool
  deriving DecidableEq, Repr
/-- A range cut at 64-byte boundaries; it is aligned to the smaller of its size and 64 bytes. -/
def pieces (dst : Nat) (src : Option Nat) (n : Nat) (fill : List Byte) : List Piece :=
  (List.range ((n + 63) / 64)).map fun j => ⟨dst + 64 * j, src.map (· + 64 * j), Nat.min n 64, fill.take (Nat.min n 64), decide (j ≠ 0)⟩
/-- A copy that is not on the slow path. -/
def Slow.none : Slow := ⟨0, 0, 0, 0, 0⟩
/-- FILL repeated to 64 bytes (R171). -/
def fillBytes (x : Nat) : List Byte := (List.range 8).flatMap fun _ => toBytes 8 x

/-- A copy as its bundle issues it: its completion word and its pieces. -/
structure Plan where
  cw : CWord
  ps : List Piece
  deriving DecidableEq, Repr
/-- Every destination byte lies in the issuing core's scratchpad, and there is one (R172). -/
def Plan.sched (p : Plan) (i : Iss) : Bool := !p.ps.isEmpty && p.ps.all fun q => i.inOwn q.dst q.len
def Plan.size (p : Plan) : Nat := (p.ps.map (·.len)).sum
/-- The skid claim (R29). -/
def Plan.claim (p : Plan) : Nat := roundUp (Nat.min p.size 4096) 64

/-- The plan of SEQGO (R168, R171). -/
def seqgoPlan (d gs c : Nat) (i : Iss) (s : State) : Except Stop Plan := do
  let cw ← readCword i s c 10
  let E := 2 ^ cwordSzl (i.regs.rg c)
  let fs := formed i.regs (i.regs.rg d).toNat (i.regs.rg gs).toNat
  let own := match fs with | [] => false | f :: _ => decide (i.inOwn (f.dst.toNat) 1)
  checkElems i s E own fs
  .ok ⟨cw, fs.flatMap fun f => pieces f.dst.toNat (f.src.map Int.toNat) E (if f.src.isSome then [] else fillBytes i.regs.fill)⟩

/-- A range lies wholly in granted cluster or die scratchpad (R174). -/
def inShared (i : Iss) (s : State) (va n : Nat) : Bool :=
  (rangeHole i s va n).isNone && [va, va + n - 1].all (fun a => match place s i.core a with
    | some 1 => true | some 2 => true | _ => false) && decide (place s i.core va = place s i.core (va + n - 1))
/-- The plan of TMOV (R174). -/
def tmovPlan (d gs c sz : Nat) (i : Iss) (s : State) : Except Stop Plan := do
  let cw ← readCword i s c 0
  let n := 2 ^ (6 + sz)
  let dst := (i.regs.rg d).toNat
  let src := (i.regs.rg gs).toNat
  if dst % 64 ≠ 0 then i.trap 0x13 dst
  else if src % 64 ≠ 0 then i.trap 0x13 src
  else if i.inOwn dst n then (if inShared i s src n then .ok ⟨cw, pieces dst (some src) n []⟩ else i.trap 0x11 src)
  else if inShared i s dst n then (if i.inOwn src n then .ok ⟨cw, pieces dst (some src) n []⟩ else i.trap 0x11 src)
  else i.trap 0x11 dst

/-! ### Dependences (R27, R29, R31, R173) -/

/-- Copies, tile moves and multicasts of a core that have not started: its sequencer queue (R173). -/
def seqQueued (s : State) (c : Nat) : Nat :=
  (s.ops.filter fun a => a.core == c && (match a.kind with
    | .copy _ _ _ _ started => !started
    | .mcast _ _ _ _ data _ _ => data.isNone
    | _ => false)).length
/-- Physical bytes of the pieces' sources in the own scratchpad; none is the allocation-format fault. -/
def pieceGas (i : Iss) (q : Piece) : Option (List Nat) :=
  match q.src with
  | some a => if i.inOwn a q.len then i.gas true q.len a else some []
  | none => some []
def planGas (i : Iss) (p : Plan) : List Nat := p.ps.flatMap fun q => (pieceGas i q).getD []
/-- Claims of a context's transfers that have not ended, those due by a cycle left out where asked (R29). -/
def claims (s : State) (c x : Nat) (after : Option Nat) : Nat :=
  (((s.ctx c x).regs.xfers.filter fun y => !y.done && !y.dead && (match after with
    | some t => decide (y.due > t)
    | none => true)).map (·.claim)).sum
/-- What a new claim meets (R29). -/
def skidWait (i : Iss) (s : State) (claim : Nat) : Wait :=
  if claims s i.core i.ctx none + claim ≤ 16384 then .ok
  else if claims s i.core i.ctx (some i.lt) + claim ≤ 16384 then .dep (.skid claim)
  else .trap { code := 0x0A, slot := i.slot }
/-- Dependences of a copy: room in the queue, due granules of its source, its claim. -/
def copyWait (plan : Iss → State → Except Stop Plan) (i : Iss) (s : State) : Wait :=
  if seqQueued s i.core ≥ 16 then .dep .seqQueue
  else match plan i s with
    | .error _ => .ok
    | .ok p =>
      match readWait i s (planGas i p) with
      | .ok => if p.sched i then skidWait i s p.claim else .ok
      | w => w

/-! ### Issue (R26 to R29, R94, R172) -/

/-- Faults of the pieces' own-scratchpad bytes: allocation format at the destination, then those of a source read. -/
def pieceChecks (i : Iss) (s : State) : List Piece → Except Stop Unit
  | [] => .ok ()
  | q :: rest => do
    if i.inOwn q.dst q.len && (i.gas true q.len q.dst).isNone then i.trap 0x14 q.dst
    else
      match q.src with
      | some a => if i.inOwn a q.len then (do let _ ← sourceGas i s q.len a; pieceChecks i s rest) else pieceChecks i s rest
      | none => pieceChecks i s rest
/-- A piece as the engine holds it: fill bytes and clean own-scratchpad bytes are read at the issue. -/
def pieceElem (i : Iss) (s : State) (im : KV (List Byte)) (first lead : Bool) (q : Piece) : Elem :=
  match q.src with
  | none => ⟨q.dst, none, q.len, q.fill, first, lead, q.cont⟩
  | some a =>
    if i.inOwn a q.len then
      let gas := (i.gas true q.len a).getD []
      if gas.any (fun ga => s.poisoned (ga / 64)) then ⟨q.dst, some a, q.len, [], first, lead, q.cont⟩
      else ⟨q.dst, none, q.len, gas.map fun ga => (im.get [] (ga / 64)).getD (ga % 64) 0, first, lead, q.cont⟩
    else ⟨q.dst, some a, q.len, [], first, lead, q.cont⟩
/-- The pieces in order, the first of each source and of each destination granule marked: a copy counts once for each (R285). -/
def planElems (i : Iss) (s : State) (im : KV (List Byte)) : List Nat → List Nat → List Piece → List Elem
  | _, _, [] => []
  | srcs, dsts, q :: rest =>
    let g := q.src.map (· / 64)
    let d := q.dst / 64
    pieceElem i s im (g.any fun n => !srcs.contains n) (!dsts.contains d) q :: planElems i s im (g.toList ++ srcs) (d :: dsts) rest
/-- SCHEDLAT class of a piece's source (R172); one that does not translate at the issue counts as HBM4. -/
def pieceClass (i : Iss) (s : State) (q : Piece) : Nat :=
  match q.src with
  | none => 1
  | some a =>
    if i.inOwn a q.len then 1
    else match xlate s i.core i.me.level .read a with
      | .ok x => x.cls
      | .error _ => 3
/-- Destination granules with their bytes and the pieces each waits for. -/
def addGran (base : Nat) (gas : List Nat) : List Gran → List Gran
  | [] => [⟨base, 1, gas, [], false⟩]
  | g :: rest =>
    if g.base = base then { g with left := g.left + 1, cover := g.cover ++ gas.filter fun a => !g.cover.contains a } :: rest
    else g :: addGran base gas rest
def planGrans (i : Iss) : List Piece → List Gran → List Gran
  | [], gs => gs
  | q :: rest, gs =>
    let gas := (i.gas true q.len q.dst).getD []
    planGrans i rest (addGran (gas.headD 0 / 64) gas gs)
/-- A scheduled transfer of the issuing context under the next name. -/
def addXfer (i : Iss) (s : State) (lat claim : Nat) (gs : List Gran) : State :=
  s.modRegs i.core i.ctx fun r => { r with
    xfers := insertXfer ⟨s.nextId, i.lt + lat, r.xseq, claim, false, gs, i.at_⟩ r.xfers
    xseq := r.xseq + 1 }
/-- Starts a copy (R172), whose accesses have the core's join count `j` of its issue (R102). -/
def copyStart (i : Iss) (s : State) (j : Nat) (p : Plan) : State :=
  let im := chooseImages i s ((planGas i p).map (· / 64)).eraseDups
  let elems := planElems i s im.2 [] [] p.ps
  let s := im.1
  let sched := p.sched i
  let lat := (p.ps.map fun q => schedLat i.me (pieceClass i s q)).foldl Nat.max 0
  let vas := p.ps.flatMap fun q => q.dst :: q.src.toList
  let after := fenced s i.core i.ctx true ++ nmFenced s i.core i.ctx vas
  let far := farBytes i s ((p.ps.filter fun q => !i.inOwn q.dst q.len).flatMap fun q => seqFrom q.dst q.len)
  let s := s.charge i.core i.ctx (copyCharge p.size + fabricCharge far)
  let s := if sched then addXfer i s lat p.claim (planGrans i p.ps []) else s
  s.post { mkOp s i.core i.ctx i.at_ after (.copy elems sched p.cw Slow.none false) with j := j }
/-- A copy's effect at its issue: the checks, the segment rule, the releases, the start. -/
def copyRun (plan : Iss → State → Except Stop Plan) (i : Iss) (s : State) : Except Stop State := do
  let p ← plan i s
  pieceChecks i s p.ps
  if (!p.ps.isEmpty && !p.sched i) || p.cw.signals then i.outward else .ok ()
  let j := (s.core i.core).j
  let (s, cw) ← i.cwRelease p.cw s
  .ok (copyStart i s j { p with cw := cw })

/-- SEQGO (R171) and TMOV (R174), which judges its completion word before its operands (DESIGN CHOICE, log entry 24). -/
def opSeqgo (d gs c : Nat) : Op := { wait := copyWait (seqgoPlan d gs c), run := copyRun (seqgoPlan d gs c) }
def opTmov (d gs c sz : Nat) : Op := { wait := copyWait (tmovPlan d gs c sz), run := copyRun (tmovPlan d gs c sz) }

/-! ### MCAST (R175) -/

/-- Receiving cores of a mask over the issuer's cluster. -/
def mcastCores (i : Iss) (mask : Nat) : List Nat :=
  (List.range 8).filterMap fun j => if bit mask j then some (8 * cluOf i.core + j) else none
/-- MCAST's checks, the completion word's first (DESIGN CHOICE, log entry 24), and what it starts. -/
def opMcast (e : Nat) (d gs c sz : Nat) : Op :=
  { wait := fun i s => if seqQueued s i.core ≥ 16 then .dep .seqQueue else .ok
    run := fun i s => do
      let cw ← readCword i s c 0
      let n := 2 ^ (6 + sz)
      let dst := (i.regs.rg d).toNat
      let src := (i.regs.rg gs).toNat
      let cores := mcastCores i e
      if cw.tset ≠ 0 then i.trap 0x1C
      else if dst % 64 ≠ 0 then i.trap 0x13 dst
      else if src % 64 ≠ 0 then i.trap 0x13 src
      else if !i.inOwn dst n then i.trap 0x11 dst
      else if i.inOwn src 1 || i.inOwn (src + n - 1) 1 then i.trap 0x12 src
      else match rangeHole i s src n with
        | some a => i.trap 0x11 a
        | none =>
          if cores.isEmpty || !(cores.all (runsTask s i.core i.me.info.task)) then i.trap 0x17
          else if (i.gas true n dst).isNone then i.trap 0x14 dst
          else do
            if cores != [i.core] || cw.signals then i.outward else .ok ()
            let j := (s.core i.core).j
            let (s, cw) ← i.cwRelease cw s
            let s := s.charge i.core i.ctx (copyCharge (n * cores.length))
            let after := fenced s i.core i.ctx true ++ nmFenced s i.core i.ctx ((List.range (n / 64)).map fun j => src + 64 * j)
            .ok (s.post { mkOp s i.core i.ctx i.at_ after (.mcast src dst n cores none cw Slow.none) with j := j }) }

/-! ### Meanings -/

def execSeqlv (e : Option Nat) (lvl fld gn : Nat) (s : State) : Out := issueOne (.seqlv e lvl fld gn) (opSeqlv e lvl fld gn) s
def execSeqgo (d gs c : Nat) (s : State) : Out := issueOne (.seqgo d gs c) (opSeqgo d gs c) s
def execTmov (d gs c sz : Nat) (s : State) : Out := issueOne (.tmov d gs c sz) (opTmov d gs c sz) s
def execMcast (e : Nat) (d gs c sz : Nat) (s : State) : Out := issueOne (.mcast e d gs c sz) (opMcast e d gs c sz) s

end Sys2Proof.Machine
end

