-- ==== Sys2Proof/Machine/Flags.lean ====
section
/-!
DEFINITION. Tags, flags and bounds of vector results: the format-tag fault (R53), FMTCTL's flags and the floating-point trap
(R66, R67), the merge of inactive elements (R196) and the bound checks at write-back (R221).
-/

namespace Sys2Proof.Machine

open Sys2Proof

/-! ### Tags and sources -/

/-- The format-tag fault of a source position; the record numbers sources from 1 (R53, R114, R263). -/
def tagFault {α : Type} (i : Iss) (found want pos : Nat) : Except Stop α :=
  .error (.trap { code := 0x07, slot := i.slot, info0 := found + 16 * want + 256 * (pos + 1) })
def checkTag (i : Iss) (pos : Nat) (v : VReg) (want : Nat) : Except Stop Unit :=
  if v.tag = want then .ok () else tagFault i v.tag want pos
/-- Hold bit of source position `pos` in an extension of layout X (R114). -/
def holdBit (e : Option Nat) (pos : Nat) : Bool := match e with | some x => bit x (29 + pos) | none => false
/-- Vector sources in assembly order, each with its hold bit. -/
def srcsFrom (e : Option Nat) : Nat → List Nat → List (Nat × Nat × Bool)
  | _, [] => []
  | pos, r :: rest => (pos, r, holdBit e pos) :: srcsFrom e (pos + 1) rest
def srcs (e : Option Nat) (rs : List Nat) : List (Nat × Nat × Bool) := srcsFrom e 0 rs
/-- A vector source of an instruction with its hold bit. -/
def vsrc (i : Iss) (e : Option Nat) (pos reg : Nat) : VReg := i.src pos reg (holdBit e pos)

/-- The rounding mode that FMTCTL holds at issue (R63, R66). -/
def rmOf (i : Iss) : RMode := ⟨i.regs.fmtctl % 4, 0⟩
/-- The block-scale threshold (R66). -/
def bthrOf (i : Iss) : Nat := bits i.regs.fmtctl 24 4
/-- Enabled exceptions (R66). -/
def enabledOf (i : Iss) : Nat := bits i.regs.fmtctl 8 5

/-! ### Flags (R67) -/

def orAll : List Nat → Nat
  | [] => 0
  | x :: rest => x ||| orAll rest
/-- A bitmap of the lanes that raise one of the flags `en`. -/
def raisers (en : Nat) (fl : List Nat) : Nat := pack 1 (fl.map fun x => if x &&& en = 0 then 0 else 1)
/-- The floating-point trap for the flags each active lane raises, or the flag update at the exposed latency (R67, R263); the
record names the exceptions that are enabled, and the lanes that raise one of them (DESIGN CHOICE, log entry 59). -/
def flagsOut (i : Iss) (lat : Nat) (fl : List Nat) (s : State) : Except Stop State :=
  let all := orAll fl
  let hit := all &&& enabledOf i
  if hit ≠ 0 then
    let lanes := raisers hit fl
    .error (.trap { code := 0x08, slot := i.slot, info0 := hit, info1 := lanes % 2 ^ 64, info2 := bits lanes 64 64 })
  else .ok (if all = 0 then s else i.emit lat (.fmtOr all) s)

/-! ### Bounds (R191, R221) -/

/-- The bound register that serves a result visible at `due`: results of `BNDSET`s that are effective then. -/
def boundAt (i : Iss) (s : State) (n due : Nat) : Bound :=
  let base := i.regs.bd.get Bound.zero n
  let fl := (s.ctx i.core i.ctx).regs.inflight.foldl (fun b f => match f.res with
    | .bd m x => if m = n ∧ f.due ≤ due ∧ f.iss ≤ i.lt then x else b
    | _ => b) base
  match i.bnd.find? (fun e => e.1 == n) with
  | some e => if i.lt + 2 ≤ due then e.2 else fl
  | none => fl
/-- The check applies to results of a tag. -/
def Bound.covers (b : Bound) (tag : Nat) : Bool :=
  b.mode != 0 && (if b.fk then decide (5 ≤ tag ∧ tag ≤ 10) else intTag tag)
/-- What a check finds of an element: 0 inside, 1 NaN or below, 2 above. -/
def Bound.side (b : Bound) (tag : Nat) (u : Bool) (x : Nat) : Nat :=
  if b.fk then
    let v := decodeVal tag x
    if v.isNan || decide (cmpVal v (decodeVal 10 (b.lo.toNat % 2 ^ 32)) < 0) then 1
    else if cmpVal v (decodeVal 10 (b.hi.toNat % 2 ^ 32)) > 0 then 2 else 0
  else
    let z := intOf u x (tagWidth tag)
    if z < b.lo.toInt then 1 else if z > b.hi.toInt then 2 else 0
/-- The element that clamp mode writes (R221). -/
def Bound.clamp (b : Bound) (tag : Nat) (u : Bool) (x : Nat) : Nat :=
  let sat := fun (z : Int) => wrapI (if u then satU z (tagWidth tag) else satS z (tagWidth tag)) (tagWidth tag)
  match b.side tag u x with
  | 0 => x
  | 1 => if b.fk then (roundVal tag ⟨2, 0⟩ (decodeVal 10 (b.lo.toNat % 2 ^ 32))).1 else sat b.lo.toInt
  | _ => if b.fk then (roundVal tag ⟨3, 0⟩ (decodeVal 10 (b.hi.toNat % 2 ^ 32))).1 else sat b.hi.toInt

/-- Elements with whether the instruction writes each: those it writes and the bound register calls out of bound. -/
def outside (b : Bound) (tag : Nat) (u : Bool) (es : List (Nat × Bool)) : Option Nat :=
  es.findIdx? fun e => e.2 && b.side tag u e.1 != 0
/-- A bound event's record (R221, R263). -/
def boundEvent (i : Iss) (n elem : Nat) (s : State) : State :=
  postEvent s (s.partOf i.core)
    { cause := { code := 0x3F, slot := i.slot, info0 := elem, info1 := n }, cls := 3, lvl := i.me.level, ctx := i.ctx,
      core := i.core, part := s.partOf i.core, ended := false, at_ := i.at_, behind := false }

/-- The number whose elements of the tag's width these are, as a register. -/
def vreg (tag : Nat) (xs : List Nat) : VReg := ⟨BitVec.ofNat 2048 (pack (tagWidth tag) xs), tag⟩

/-- A register result of the V and F slots: its elements, and which of them the instruction writes (R196, R221). -/
def emitV (i : Iss) (lat vd tag : Nat) (u : Bool) (es : List (Nat × Bool)) (s : State) : Except Stop State :=
  let n := vd / 2
  let b := boundAt i s n (i.lt + lat)
  let put := fun (xs : List Nat) => i.emit lat (.v vd (vreg tag xs))
  let xs := es.map fun e => e.1
  if !b.covers tag then .ok (put xs s)
  else match outside b tag u es with
    | none => .ok (put xs s)
    | some j =>
      match b.mode with
      | 1 => .ok (put xs (boundEvent i n j s))
      | 2 => .ok (put (es.map fun e => if e.2 then b.clamp tag u e.1 else e.1) s)
      | _ => .error (.trap { code := 0x25, slot := i.slot, info0 := j, info1 := n })

/-- The number of elements of a tag, and an operand's elements under it. -/
def VReg.elem (v : VReg) (tag j : Nat) : Nat := Machine.elem (tagWidth tag) v.bits.toNat j
def VReg.elems (v : VReg) (tag : Nat) : List Nat := Machine.elems (tagWidth tag) (tagCount tag) v.bits.toNat
/-- Lane `j` of a mask is active (R196). -/
def active (m : Mask) (j : Nat) : Bool := m.getLsbD j

/-- A register result whose element `j` is what `f j` gives, with the flags it raises; where `f` gives none the element keeps
the destination's bits as read at issue (R196, R206), so that of two conversions of different PART in flight to one register the later
write stands whole (DEDUCED, log entry 68). -/
def partOut (i : Iss) (lat vd tag : Nat) (u : Bool) (f : Nat → Option (Nat × Nat)) (s : State) : Except Stop State := do
  let old := i.regs.rv vd
  let rs := (List.range (tagCount tag)).map fun j => match f j with
    | some r => (r.1, true, r.2)
    | none => (old.elem tag j, false, 0)
  let s ← flagsOut i lat (rs.map fun r => r.2.2) s
  emitV i lat vd tag u (rs.map fun r => (r.1, r.2.1)) s
/-- A masked element-wise result: flags come from active lanes only (R67, R196). -/
def maskedOut (i : Iss) (lat vd tag mk : Nat) (u : Bool) (f : Nat → Nat × Nat) (s : State) : Except Stop State :=
  partOut i lat vd tag u (fun j => if active (i.regs.rm mk) j then some (f j) else none) s
/-- A result that writes every element. -/
def wholeOut (i : Iss) (lat vd tag : Nat) (u : Bool) (f : Nat → Nat × Nat) (s : State) : Except Stop State :=
  partOut i lat vd tag u (fun j => some (f j)) s

end Sys2Proof.Machine
end

