-- ==== Sys2Proof/Machine/Scalar.lean ====
section
/-!
DEFINITION. The S0 and S1 slots (R131 to R140): arithmetic, logic, compares, constants, predicates, special registers.
-/

namespace Sys2Proof.Machine

open Sys2Proof

/-- A guarded scalar result of latency `lat` (R131, R133). -/
def opG (p : Nat) (pn : Bool) (lat d : Nat) (f : Regs → Word) : Op :=
  { run := fun i s => .ok (if guard i.regs p pn then i.emit lat (.g d (f i.regs)) s else s) }
/-- A two-source scalar instruction (R132, R133). -/
def opBin (lat : Nat) (f : Word → Word → Word) (e : Option Nat) (d a b p : Nat) (pn : Bool) : Op :=
  opG p pn lat d fun r => f (r.rg a) (src2 r e b)
/-- A predicate result of latency 1 (R135, R138). -/
def opP (pd : Nat) (f : Regs → Bool) : Op :=
  { run := fun i s => .ok (i.emit 1 (.p pd (f i.regs)) s) }

/-- MULH (R133): the high half of the exact product. -/
def mulhW (u : Bool) (a b : Word) : Word :=
  if u then BitVec.ofNat 64 (a.toNat * b.toNat / 2 ^ 64) else BitVec.ofInt 64 (a.toInt * b.toInt / 2 ^ 64)
/-- Quotient and remainder (R55). -/
def divW (u : Bool) (a b : Word) : Word := BitVec.ofNat 64 (divN u 64 a.toNat b.toNat)
def remW (u : Bool) (a b : Word) : Word := BitVec.ofNat 64 (remN u 64 a.toNat b.toNat)
/-- Shifts and rotate (R56): the amount is bits 7:0. -/
def shlW (a b : Word) : Word := BitVec.ofNat 64 (shlN 64 a.toNat b.toNat)
def shrW (a b : Word) : Word := BitVec.ofNat 64 (shrN 64 a.toNat b.toNat)
def sraW (a b : Word) : Word := BitVec.ofNat 64 (sraN 64 a.toNat b.toNat)
def rotW (a b : Word) : Word := BitVec.ofNat 64 (rotN 64 a.toNat b.toNat)
/-- `a < b`, unsigned or signed (R133, R135). -/
def ltW (u : Bool) (a b : Word) : Bool := if u then a.ult b else a.slt b
def minW (u : Bool) (a b : Word) : Word := if ltW u b a then b else a
def maxW (u : Bool) (a b : Word) : Word := if ltW u a b then b else a
def clzW (a : Word) : Word := BitVec.ofNat 64 (clzN 64 a.toNat)
def popW (a : Word) : Word := BitVec.ofNat 64 (popN 64 a.toNat)
/-- The condition of CMP (R135). -/
def condW (cond : Nat) (u : Bool) (a b : Word) : Bool :=
  match cond with
  | 0 => a == b
  | 1 => a != b
  | 2 => ltW u a b
  | _ => !ltW u a b

def opAdd (e : Option Nat) (d a b p : Nat) (pn : Bool) : Op := opBin 1 (· + ·) e d a b p pn
def opSub (e : Option Nat) (d a b p : Nat) (pn : Bool) : Op := opBin 1 (· - ·) e d a b p pn
def opMul (e : Option Nat) (d a b p : Nat) (pn : Bool) : Op := opBin 3 (· * ·) e d a b p pn
def opAnd (e : Option Nat) (d a b p : Nat) (pn : Bool) : Op := opBin 1 (· &&& ·) e d a b p pn
def opOr (e : Option Nat) (d a b p : Nat) (pn : Bool) : Op := opBin 1 (· ||| ·) e d a b p pn
def opXor (e : Option Nat) (d a b p : Nat) (pn : Bool) : Op := opBin 1 (· ^^^ ·) e d a b p pn
def opAndn (e : Option Nat) (d a b p : Nat) (pn : Bool) : Op := opBin 1 (fun x y => x &&& ~~~y) e d a b p pn
def opShl (e : Option Nat) (d a b p : Nat) (pn : Bool) : Op := opBin 1 shlW e d a b p pn
def opShr (e : Option Nat) (d a b p : Nat) (pn : Bool) : Op := opBin 1 shrW e d a b p pn
def opSra (e : Option Nat) (d a b p : Nat) (pn : Bool) : Op := opBin 1 sraW e d a b p pn
def opRot (e : Option Nat) (d a b p : Nat) (pn : Bool) : Op := opBin 1 rotW e d a b p pn
def opMulh (e : Option Nat) (d a b p : Nat) (pn u : Bool) : Op := opBin 3 (mulhW u) e d a b p pn
def opDiv (e : Option Nat) (d a b p : Nat) (pn u : Bool) : Op := opBin 12 (divW u) e d a b p pn
def opRem (e : Option Nat) (d a b p : Nat) (pn u : Bool) : Op := opBin 12 (remW u) e d a b p pn
def opMin (e : Option Nat) (d a b p : Nat) (pn u : Bool) : Op := opBin 1 (minW u) e d a b p pn
def opMax (e : Option Nat) (d a b p : Nat) (pn u : Bool) : Op := opBin 1 (maxW u) e d a b p pn
/-- CLZ and POPC (R134). -/
def opClz (d a p : Nat) (pn : Bool) : Op := opG p pn 1 d fun r => clzW (r.rg a)
def opPopc (d a p : Nat) (pn : Bool) : Op := opG p pn 1 d fun r => popW (r.rg a)
/-- CMP (R135). -/
def opCmp (e : Option Nat) (pd cond a b p : Nat) (pn u : Bool) : Op :=
  { run := fun i s => .ok (if guard i.regs p pn then
      i.emit 1 (.p pd (condW cond u (i.regs.rg a) (src2 i.regs e b))) s else s) }
/-- SEL (R136): no guard; the predicate chooses. -/
def opSel (e : Option Nat) (d a b ps : Nat) (pn : Bool) : Op :=
  { run := fun i s => .ok (i.emit 1 (.g d (if guard i.regs ps pn then i.regs.rg a else src2 i.regs e b)) s) }
/-- LDI's three forms (R137). -/
def opLdi (d imm : Nat) : Op := { run := fun i s => .ok (i.emit 1 (.g d (BitVec.ofInt 64 (sgn imm 18))) s) }
def opLdiExt (e d : Nat) : Op := { run := fun i s => .ok (i.emit 1 (.g d (sext32 e)) s) }
def opLdiHi (e d : Nat) : Op :=
  { run := fun i s => .ok (i.emit 1 (.g d (BitVec.ofNat 64 (e % 2 ^ 32 * 2 ^ 32 + (i.regs.rg d).toNat % 2 ^ 32))) s) }
/-- Predicate logic (R138). -/
def opPand (pd pa pb : Nat) (na nb : Bool) : Op := opP pd fun r => (r.rp pa ^^ na) && (r.rp pb ^^ nb)
def opPor (pd pa pb : Nat) (na nb : Bool) : Op := opP pd fun r => (r.rp pa ^^ na) || (r.rp pb ^^ nb)
def opPxor (pd pa pb : Nat) (na nb : Bool) : Op := opP pd fun r => (r.rp pa ^^ na) ^^ (r.rp pb ^^ nb)
def opPnot (pd pa : Nat) (na : Bool) : Op := opP pd fun r => !(r.rp pa ^^ na)

/-! ### Special registers (R139, R140) -/

/-- The slot table a TSLOT word names (R140): 1024 times its kind plus which one; one fabric egress and one ingress table for
the module (DEDUCED, log entry 19). -/
def slotKey (c n : Nat) : Nat :=
  match n with
  | 0 => cluOf c
  | 1 => 1024 + cluOf c
  | 2 => 2048 + dieOf c
  | 3 => 3072 + 3 * dieOf c
  | 4 => 3072 + 3 * dieOf c + 1
  | 5 => 3072 + 3 * dieOf c + 2
  | 6 => 6144
  | _ => 7168
/-- OWN of a table for a partition (R140): an entry's owner is held as partition + 1, 0 for free. -/
def ownWord (t : SlotTab) (p : Nat) : Nat :=
  pack 1 ((List.range 64).map fun i => if t.own.get 0 i = p + 1 then 1 else 0)

/-- GEAR (R140). -/
def gearWord (k : Core) (x : Nat) : Nat :=
  (k.capg % 4) * 2 ^ 8 + (k.ctxs.get Ctx.reset x).gearReq % 4 * 2 ^ 2 + k.curOf x % 4
/-- LIDX (R140). -/
def lidxWord (r : Regs) (n : Nat) : Nat := if (r.loop n).act then 2 ^ 32 + (r.loop n).index % 2 ^ 32 else 0

/-- A special register that needs no sampling of time, at the start of the bundle (R139).  On the housekeeping core of die `d` CORID
and PARTID read `d` (DESIGN CHOICE, log entry 1). -/
def srValue (i : Iss) (s : State) (sr idx : Nat) : Nat :=
  let k := i.me
  let p := s.partOf i.core
  match sr with
  | 0x00 => i.ltime
  | 0x02 => gearWord { s.core i.core with ctxs := (s.core i.core).ctxs.set i.ctx k } i.ctx
  | 0x03 => k.energy
  | 0x04 => k.ensat.toNat
  | 0x05 => k.regs.fmtctl
  | 0x06 => if idx = 0 then k.sched0.toNat else k.sched1.toNat
  | 0x07 => if idx = 8 then (s.part p).cfg.strict.toNat else ownWord (s.slots.get SlotTab.reset (slotKey i.core idx)) p
  | 0x08 => (Config.moduleNumber 0).toNat * 2 ^ 9 + i.core % 512
  | 0x09 => i.ctx
  | 0x0A => p % 128
  | 0x0B => if idx = 0 then s.feat0 p else 0
  | 0x0C => k.regs.rlc idx
  | 0x0D => lidxWord k.regs idx
  | _ => 0

/-- SRD (R139): PTIME is sampled at the issue (R25). -/
def opSrd (d sr idx p : Nat) (pn : Bool) : Op :=
  { run := fun i s => .ok (
      if guard i.regs p pn then
        (if sr = 0x01 then i.emit 1 (.g d (BitVec.ofNat 64 s.now)) s.sampled
         else i.emit 1 (.g d (BitVec.ofNat 64 (srValue i s sr idx))) s)
      else s) }

/-- What a write of FMTCTL or a loop count register does (R66, R139): RM 4 to 7 is refused with the illegal-instruction trap. -/
def swrRun (i : Iss) (s : State) (sr idx : Nat) (v : Word) : Except Stop State :=
  if sr = 0x05 then
    (if v.toNat % 8 ≥ 4 then i.trap 0x03 else .ok (i.emit 1 (.fmtSet v.toNat) s))
  else .ok (i.emit 1 (.lc idx (v.toNat % 2 ^ 32)) s)
/-- SWR (R139). -/
def opSwr (a sr idx p : Nat) (pn : Bool) : Op :=
  { run := fun i s => if guard i.regs p pn then swrRun i s sr idx (i.regs.rg a) else .ok s }

/-! ### Meanings -/

def execAdd (e : Option Nat) (d a b p : Nat) (pn : Bool) (s : State) : Out := issueOne (.add e d a b p pn) (opAdd e d a b p pn) s
def execSub (e : Option Nat) (d a b p : Nat) (pn : Bool) (s : State) : Out := issueOne (.sub e d a b p pn) (opSub e d a b p pn) s
def execMul (e : Option Nat) (d a b p : Nat) (pn : Bool) (s : State) : Out := issueOne (.mul e d a b p pn) (opMul e d a b p pn) s
def execAnd (e : Option Nat) (d a b p : Nat) (pn : Bool) (s : State) : Out := issueOne (.and e d a b p pn) (opAnd e d a b p pn) s
def execOr (e : Option Nat) (d a b p : Nat) (pn : Bool) (s : State) : Out := issueOne (.or e d a b p pn) (opOr e d a b p pn) s
def execXor (e : Option Nat) (d a b p : Nat) (pn : Bool) (s : State) : Out := issueOne (.xor e d a b p pn) (opXor e d a b p pn) s
def execAndn (e : Option Nat) (d a b p : Nat) (pn : Bool) (s : State) : Out := issueOne (.andn e d a b p pn) (opAndn e d a b p pn) s
def execShl (e : Option Nat) (d a b p : Nat) (pn : Bool) (s : State) : Out := issueOne (.shl e d a b p pn) (opShl e d a b p pn) s
def execShr (e : Option Nat) (d a b p : Nat) (pn : Bool) (s : State) : Out := issueOne (.shr e d a b p pn) (opShr e d a b p pn) s
def execSra (e : Option Nat) (d a b p : Nat) (pn : Bool) (s : State) : Out := issueOne (.sra e d a b p pn) (opSra e d a b p pn) s
def execRot (e : Option Nat) (d a b p : Nat) (pn : Bool) (s : State) : Out := issueOne (.rot e d a b p pn) (opRot e d a b p pn) s
def execMulh (e : Option Nat) (d a b p : Nat) (pn u : Bool) (s : State) : Out := issueOne (.mulh e d a b p pn u) (opMulh e d a b p pn u) s
def execDiv (e : Option Nat) (d a b p : Nat) (pn u : Bool) (s : State) : Out := issueOne (.div e d a b p pn u) (opDiv e d a b p pn u) s
def execRem (e : Option Nat) (d a b p : Nat) (pn u : Bool) (s : State) : Out := issueOne (.rem e d a b p pn u) (opRem e d a b p pn u) s
def execMin (e : Option Nat) (d a b p : Nat) (pn u : Bool) (s : State) : Out := issueOne (.min e d a b p pn u) (opMin e d a b p pn u) s
def execMax (e : Option Nat) (d a b p : Nat) (pn u : Bool) (s : State) : Out := issueOne (.max e d a b p pn u) (opMax e d a b p pn u) s
def execClz (d a p : Nat) (pn : Bool) (s : State) : Out := issueOne (.clz d a p pn) (opClz d a p pn) s
def execPopc (d a p : Nat) (pn : Bool) (s : State) : Out := issueOne (.popc d a p pn) (opPopc d a p pn) s
def execCmp (e : Option Nat) (pd cond a b p : Nat) (pn u : Bool) (s : State) : Out :=
  issueOne (.cmp e pd cond a b p pn u) (opCmp e pd cond a b p pn u) s
def execSel (e : Option Nat) (d a b ps : Nat) (pn : Bool) (s : State) : Out := issueOne (.sel e d a b ps pn) (opSel e d a b ps pn) s
def execLdi (d imm : Nat) (s : State) : Out := issueOne (.ldi d imm) (opLdi d imm) s
def execLdiExt (e d : Nat) (s : State) : Out := issueOne (.ldiExt e d) (opLdiExt e d) s
def execLdiHi (e d : Nat) (s : State) : Out := issueOne (.ldiHi e d) (opLdiHi e d) s
def execPand (pd pa pb : Nat) (na nb : Bool) (s : State) : Out := issueOne (.pand pd pa pb na nb) (opPand pd pa pb na nb) s
def execPor (pd pa pb : Nat) (na nb : Bool) (s : State) : Out := issueOne (.por pd pa pb na nb) (opPor pd pa pb na nb) s
def execPxor (pd pa pb : Nat) (na nb : Bool) (s : State) : Out := issueOne (.pxor pd pa pb na nb) (opPxor pd pa pb na nb) s
def execPnot (pd pa : Nat) (na : Bool) (s : State) : Out := issueOne (.pnot pd pa na) (opPnot pd pa na) s
def execSrd (d sr idx p : Nat) (pn : Bool) (s : State) : Out := issueOne (.srd d sr idx p pn) (opSrd d sr idx p pn) s
def execSwr (a sr idx p : Nat) (pn : Bool) (s : State) : Out := issueOne (.swr a sr idx p pn) (opSwr a sr idx p pn) s

end Sys2Proof.Machine
end

