-- ==== Sys2Proof/Machine/Privileged.lean ====
section
/-!
DEFINITION. The privileged instructions of the B slot (R254 to R259, R265, R269, R274, R289, R308, R316, R329).
-/

namespace Sys2Proof.Machine

open Sys2Proof

/-- ERET (R256): legal only in a handler; the recorded point resumes after two delay bundles. -/
def opEret : Op :=
  { priv := true, ctl := true
    run := fun i s => if sstatInh i.me.sstat then .ok (pendTo i .eret s) else i.trap 0x03 }

/-! ### SRDP and SWRP -/

/-- Core and context that a CTXSEL value names (R259). -/
def selTarget (v : Nat) : Nat × Nat := (v % 2 ^ 9, bits v 9 2)
def Iss.target (i : Iss) : Nat × Nat := selTarget i.me.ctxsel
/-- The target lies in the issuing partition (R259). -/
def targetIn (s : State) (i : Iss) : Bool := (s.part (s.partOf i.core)).cfg.cores.contains i.target.1
/-- Selectors 0x4F to 0x51 reach the issuing context or a suspended one (R258). -/
def targetOpen (s : State) (i : Iss) : Bool :=
  targetIn s i && (i.target == (i.core, i.ctx) || decide ((s.ctx i.target.1 i.target.2).status = .suspended))
/-- CTXSTAT (R259). -/
def ctxstat (k : Ctx) : Nat :=
  (if k.status = .suspended then k.suspCause else 0) * 2 ^ 56 + k.held.isSome.toNat * 2 ^ 7 + k.busy.toNat * 2 ^ 6 +
  k.level * 2 ^ 4 + (match k.status with | .empty => 0 | .ready => 1 | .frozen => 2 | .suspended => 3)
/-- PORTST (R316): a port with no link up is training while one of its links trains. -/
def portst (p : Port) : Nat :=
  let up := [0, 1, 2, 3].filter fun l => (p.links.get Link.down l).up
  let mask := (up.map (2 ^ ·)).sum
  let trains := [0, 1, 2, 3].any fun l => (p.links.get Link.down l).training
  let state := if up.length = 4 then 2 else if up.length > 0 then 3 else if trains then 1 else 0
  Nat.min p.rtry (2 ^ 32 - 1) * 2 ^ 32 + Nat.min p.fails 255 * 2 ^ 24 + mask * 2 ^ 16 + p.far * 2 ^ 2 + state
/-- TRCSTAT (R308). -/
def trcstat (t : Trace) : Nat :=
  t.err.toNat * 2 ^ 7 + t.ovf.toNat * 2 ^ 6 + t.end_.toNat * 2 ^ 5 + t.brk.toNat * 2 ^ 4 + t.mode

/-- A privileged register's value (R258, R308, R316, R329). -/
def srdpValue (i : Iss) (s : State) (sr idx : Nat) : Nat :=
  let k := i.me
  let q := s.part (s.partOf i.core)
  let t := s.ctx i.target.1 i.target.2
  let port := s.fabric.ports.get Port.reset (6 * dieOf i.core + idx)
  match sr with
  | 0x40 => k.level
  | 0x41 => k.stvec
  | 0x42 => k.sepc
  | 0x43 => k.sstat
  | 0x44 => k.sptgt
  | 0x45 => q.tqbase
  | 0x46 => q.tqctl
  | 0x47 => q.tqprod
  | 0x48 => q.tqcons
  | 0x49 => q.tqstamp
  | 0x4A => q.tqdrop
  | 0x4B => q.pctl
  | 0x4C => k.ctxsel
  | 0x4D => 0
  | 0x4E => ctxstat t
  | 0x4F => (t.bkpt.get 0 idx).toNat
  | 0x50 => t.energy
  | 0x51 => t.gearReq
  | 0x52 => 6443008 * 2 ^ 32 + 471040
  | 0x53 => trcstat q.trace
  | 0x54 => q.trace.pos
  | 0x55 => portst port
  | 0x56 => portFw port 0
  | 0x57 => portFw port 1
  | 0x58 => weight 0 idx
  | 0x59 => weight 1 idx
  | 0x5A => weight 2 idx
  | 0x5B => weight 3 idx
  | 0x5C => (s.core i.core).ras.get 0 idx
  | _ => srValue i s sr idx

/-- SRDP (R257, R258): latency 1. -/
def opSrdp (d sr idx : Nat) : Op :=
  { priv := true
    run := fun i s =>
      if (sr == 0x4E && !targetIn s i) || ((sr == 0x4F || sr == 0x50 || sr == 0x51) && !targetOpen s i) then i.trap 0x29
      else if sr = 0x01 then .ok (i.emit 1 (.g d (BitVec.ofNat 64 s.now)) s.sampled)
      else .ok (i.emit 1 (.g d (BitVec.ofNat 64 (srdpValue i s sr idx))) s) }

/-- A write of TQCTL that R259 refuses. -/
def tqctlBad (q : Part) (v : Nat) : Bool :=
  let len := tqLen v
  decide (len < 4 ∨ len > 12) || (tqEn q.tqctl && tqEn v && len != tqLen q.tqctl)
/-- A write of TQCONS that R258 refuses. -/
def tqconsBad (q : Part) (v : Nat) : Bool := decide (v > q.tqprod) || decide (q.tqprod - v > 2 ^ tqLen q.tqctl)
/-- A context command whose required state does not hold (R265). -/
def cmdBad (s : State) (i : Iss) (cmd : Nat) : Bool :=
  let t := s.ctx i.target.1 i.target.2
  !targetIn s i || t.busy ||
  (if cmd = 3 then !(decide (t.status = .ready) || decide (t.status = .frozen)) else !decide (t.status = .suspended))

/-- SWRP (R257 to R259): checks at the issue, the write in the next cycle. -/
def opSwrp (a sr idx : Nat) : Op :=
  { priv := true
    run := fun i s =>
      let v := i.regs.rg a
      let n := v.toNat
      let q := s.part (s.partOf i.core)
      let put := fun (x : Nat) => (.ok (i.emit 1 (.spr sr idx x i.target.1 i.target.2) s) : Except Stop State)
      if sr = 0x05 ∨ sr = 0x0C then swrRun i s sr idx v
      else if sr = 0x46 ∧ tqctlBad q n then i.trap 0x03
      else if sr = 0x48 ∧ tqconsBad q n then i.trap 0x03
      else if sr = 0x4D then
        (if n % 16 = 0 ∨ n % 16 > 4 then i.trap 0x03 else if cmdBad s i (n % 16) then i.trap 0x29 else put (n % 16))
      else if (sr = 0x4F ∨ sr = 0x50 ∨ sr = 0x51) ∧ !targetOpen s i then i.trap 0x29
      else put n }

/-! ### TLBINV, CTXSV, CTXLD (R269, R289) -/

/-- The local-copy leaf that the release copy of `TLBINV.wb` reads, V ignored, with its level and place; none where the path
fails to walk or the leaf is no local copy (R280, R287); or the poisoned table line that the path meets. -/
def wbPath (s : State) (cfg : PartCfg) (va : Nat) : Nat → Nat → Except Nat (Option (Nat × Nat × Nat))
  | lvl, table =>
    let ea := entryAt lvl table va
    let e := readNat s.mem 8 ea
    if s.poisoned (ea / 64) then .error (ea / 64)
    else if bit e 1 then .ok (if lvl ≥ 3 || leafReserved lvl e then none else some (lvl, ea, e))
    else match lvl with
      | 0 => .ok none
      | l + 1 =>
        let next := bits e 8 40 * 256
        if bit e 0 && !nextReserved (l + 1) e && cfg.granted next (tableSize l) && lpaClass next == some 3 then wbPath s cfg va l next
        else .ok none
/-- The poisoned table line that the path of a release copy meets (R290). -/
def wbPoison (s : State) (p va : Nat) : Option Nat :=
  match (if (s.part p).tcbOk then wbPath s (s.part p).cfg va 3 (s.part p).root else .ok none) with
  | .error l => some l
  | .ok _ => none
def wbLeaf (s : State) (p va : Nat) : Option (Nat × Nat × Nat) :=
  let cfg := (s.part p).cfg
  if !(s.part p).tcbOk then none
  else ((wbPath s cfg va 3 (s.part p).root).toOption.join).filter fun t =>
    bits t.2.2 8 2 == 2 && !malformed s p t.2.2 && doubledOk cfg t.1 t.2.1 && cfg.granted (bits t.2.2 16 32 * 2 ^ 16) (2 ^ pageBits t.1) &&
    (cfg.dest 1 (bits t.2.2 52 12)).isSome

def runTlbinv (kind a c : Nat) (i : Iss) (s : State) : Except Stop State := do
  i.outward
  let cw ← readCword i s c 0
  let va := (i.regs.rg a).toNat % 2 ^ 57
  let n := if kind = 2 then (match wbLeaf s (s.partOf i.core) va with | some (l, _, _) => 2 ^ pageBits l | none => 0) else 0
  let j := (s.core i.core).j
  let (s, cw) ← i.cwRelease cw s
  let s := s.charge i.core i.ctx (copyCharge n)
  .ok (s.post { mkOp s i.core i.ctx i.at_ (allBefore s i.core i.ctx) (.tlbinv kind va cw) with j := j })
def opTlbinvPage (a c : Nat) : Op := { priv := true, run := runTlbinv 0 a c }
def opTlbinvAll (c : Nat) : Op := { priv := true, run := runTlbinv 1 0 c }
def opTlbinvWb (a c : Nat) : Op := { priv := true, run := runTlbinv 2 a c }

/-- The contexts a save or load names (R269). -/
def imgContexts (core : Bool) (tx : Nat) : List Nat := if core then [0, 1, 2, 3] else [tx]
/-- The precise checks of CTXSV and CTXLD (R269). -/
def imgChecks (core : Bool) (t a c : Nat) (i : Iss) (s : State) : Except Stop (Nat × Nat × Nat × CWord) := do
  i.outward
  let cw ← readCword i s c 0
  let (tc, tx) := selTarget (i.regs.rg t).toNat
  let va := (i.regs.rg a).toNat
  if va % 4096 ≠ 0 then i.trap 0x13 va
  else if inWindow va then i.trap 0x12 va
  else if (imgContexts core tx).any (fun x => (tc == i.core && x == i.ctx) || (s.ctx tc x).busy) then i.trap 0x29
  else .ok (tc, tx, va, cw)
def setBusy (b : Bool) (tc : Nat) (s : State) (x : Nat) : State := s.modCtx tc x fun k => { k with busy := b }
def statusCode (k : Ctx) : Nat := match k.status with | .empty => 0 | .ready => 1 | .frozen => 2 | .suspended => 3
/-- What the accesses to an image follow: the fences (R95, R273), and the NMFENCEs where it may lie in HBM4 (R96). -/
def imgAfter (core : Bool) (i : Iss) (s : State) (va : Nat) : List Nat :=
  fenced s i.core i.ctx true ++ nmFenced s i.core i.ctx (pageStarts va (imageMax core))
/-- CTXSV stops its targets at once, since every context stands at a boundary between steps (R265, R269). -/
def runSave (core : Bool) (t a c : Nat) (i : Iss) (s : State) : Except Stop State := do
  let (tc, tx, va, cw) ← imgChecks core t a c i s
  let xs := imgContexts core tx
  let inside := (s.part (s.partOf i.core)).cfg.cores.contains tc
  let j := (s.core i.core).j
  let (s, cw) ← i.cwRelease cw s
  let was := [0, 1, 2, 3].map fun x => statusCode (s.ctx tc x)
  let s := s.post { mkOp s i.core i.ctx i.at_ (imgAfter core i s va) (.save core tc tx va was cw) with j := j }
  .ok (if inside then xs.foldl (setBusy true tc) (xs.foldl (fun s x => suspendCmd s tc x) s) else s)
def runLoad (core : Bool) (t a c : Nat) (i : Iss) (s : State) : Except Stop State := do
  let (tc, tx, va, cw) ← imgChecks core t a c i s
  let inside := (s.part (s.partOf i.core)).cfg.cores.contains tc
  let j := (s.core i.core).j
  let (s, cw) ← i.cwRelease cw s
  let s := s.post { mkOp s i.core i.ctx i.at_ (imgAfter core i s va) (.load core tc tx va cw) with j := j }
  .ok (if inside then (imgContexts core tx).foldl (setBusy true tc) s else s)
def opCtxsvCtx (t a c : Nat) : Op := { priv := true, run := runSave false t a c }
def opCtxsvCore (t a c : Nat) : Op := { priv := true, run := runSave true t a c }
def opCtxldCtx (t a c : Nat) : Op := { priv := true, run := runLoad false t a c }
def opCtxldCore (t a c : Nat) : Op := { priv := true, run := runLoad true t a c }

/-! ### TRCCTL (R308, R309) -/

/-- Memory that no access reaches any more: the peer-unreachable or the shelf-lost fault (R299, R313). -/
def lostCause (s : State) (c lvl : Nat) (k : AccKind) (va : Nat) : Option Cause :=
  match xlate s c lvl k va with
  | .ok x => if unreachable s x.ga then some (goneCause va) else none
  | .error (.lost gen peer) => some (xfailCause (.lost gen peer) va)
  | .error _ => none
/-- `n` bytes of memory the supervisor maps, as a number, with the state that the read leaves: it counts in a page of access mode 3
(R285), and a walk that meets a poisoned table line marks it (R290); none from memory that is out of reach, which is reported to the
operation `who` it is read for, or from a peer that refuses, which answers (R299, R311, R313, R318). -/
def readVa (who : Async) (s : State) (c lvl va n : Nat) : State × Option Nat :=
  match lostCause s c lvl .read va, xlate s c lvl .read va with
  | some q, _ => (s.report who q, none)
  | none, .ok x =>
    if refused s (s.partOf c) x then (s.exchange x.ga, none)
    else ((countVa s (s.partOf c) c va x).exchange x.ga, some (readNat s.mem n x.ga))
  | none, .error f => (noteFail s c f, none)
/-- Consecutive dwords from an address. -/
def readVas (who : Async) (c lvl va : Nat) : Nat → State → State × List (Option Nat)
  | 0, s => (s, [])
  | n + 1, s =>
    let r := readVas who c lvl va n s
    let d := readVa who r.1 c lvl (va + 8 * n) 8
    (d.1, r.2 ++ [d.2])
/-- Dwords as one number, lowest first; one that cannot be read is 0. -/
def packWords (l : List (Option Nat)) : Nat := pack 64 (l.map (·.getD 0))
/-- Trace records are written in order while they fit; one that does not sets OVF and stops recording (R309). -/
def traceWrite (s : State) (p : Nat) (bytes : List Byte) : State :=
  let t := (s.part p).trace
  if t.mode ≠ 1 ∨ t.ovf then s
  else if t.pos + bytes.length > t.size then s.modPart p fun q => { q with trace := { t with ovf := true } }
  else
    let rec go : State → Nat → Nat → List Byte → State
      | s, 0, _, _ => s
      | s, n + 1, va, bs => go (tryWrite s p va (bs.take 16)) n (va + 16) (bs.drop 16)
    (go s (bytes.length / 16) (t.base + t.pos) bytes).modPart p fun q => { q with trace := { t with pos := t.pos + bytes.length } }
/-- A 512-bit core mask. -/
def coreMask (cores : List Nat) : Nat := (cores.eraseDups.map (2 ^ ·)).sum
/-- The units of a CORES, PLACE and START record (R309). -/
def coresRecord (cores : List Nat) : List Byte := toBytes 16 1 ++ toBytes 64 (coreMask cores)
def placeRecord (pri nc nd r khdr args : Nat) (cores : List Nat) : List Byte :=
  toBytes 16 (2 + pri * 2 ^ 8 + nc * 2 ^ 16 + nd * 2 ^ 32 + r * 2 ^ 64) ++ toBytes 8 khdr ++ toBytes 8 args ++ toBytes 64 (coreMask cores)
def startRecord (core r : Nat) : List Byte := toBytes 16 (3 + core * 2 ^ 16 + r * 2 ^ 64)

/-- What a trace block says, none when it is malformed (R308): also one that cannot be read, and in bind mode one whose USED is no multiple
of 16 or exceeds SIZE (DESIGN CHOICE, log entry 78). -/
def traceBlock (bind : Bool) (va : Nat) (w : List (Option Nat)) : Option (Nat × Nat × Nat) :=
  match w with
  | [some base, some size, some used, some rsv] =>
    if va % 16 = 0 ∧ base % 16 = 0 ∧ size % 16 = 0 ∧ size ≤ 2 ^ 32 ∧ rsv = 0 ∧ (bind → used % 16 = 0 ∧ used ≤ size) then
      some (base, size, used) else none
  | _ => none

/-- The core mask bits of a CORES record's 64 bytes. -/
def maskCores (m : Nat) : List Nat := (List.range 512).filter fun n => bit m n
/-- Translates a recorded core by list position (R309). -/
def traceMap (old now : List Nat) (c : Nat) : Option Nat :=
  match old.findIdx? (· == c) with
  | some i => now[i]?
  | none => none
/-- Bytes of a record of a kind; none of an unknown kind (R309). -/
def recordSize (kind : Nat) : Option Nat := match kind with | 1 => some 80 | 2 => some 96 | 3 => some 16 | _ => none
/-- The record at a position: its kind and size, where it lies whole in the bytes that count (R309). -/
def recordAt (w0 pos used : Nat) : Option (Nat × Nat) :=
  (recordSize (w0 % 256)).bind fun n => if pos + n ≤ used then some (w0 % 256, n) else none
/-- START records of a bind run by translated core, in order; the CORES record comes first (R309). -/
def traceScan (who : Async) (p base used : Nat) : Nat → State → Nat → List Nat → KV (List Nat) → State × List Nat × KV (List Nat)
  | 0, s, _, cores, st => (s, cores, st)
  | n + 1, s, pos, cores, st =>
    let c := (s.part p).cfg.control
    let u := readVas who c 1 (base + pos) 2 s
    let w0 := (u.2.headD none).getD 0
    match recordAt w0 pos used with
    | some (1, len) =>
      let m := readVas who c 1 (base + pos + 16) 8 u.1
      traceScan who p base used n m.1 (pos + len) (maskCores (packWords m.2)) st
    | some (3, len) =>
      let r := packWords (u.2.drop 1) % 2 ^ 32
      match traceMap cores (maskCores (coreMask (s.part p).cfg.cores)) (bits w0 16 9) with
      | some d => traceScan who p base used n u.1 (pos + len) cores (st.set d (st.get [] d ++ [r]))
      | none => traceScan who p base used n u.1 (pos + len) cores st
    | some (_, len) => traceScan who p base used n u.1 (pos + len) cores st
    | none => (u.1, cores, st)

/-- Bind mode ends once USED bytes are bound (R308, R309). -/
def Trace.bound (t : Trace) (n : Nat) : Trace :=
  let t := { t with pos := t.pos + n }
  if t.mode = 2 ∧ t.pos ≥ t.used then { t with mode := 0, end_ := true, starts := [] } else t
/-- The operation for which a `TRCCTL` reads memory. -/
def TraceReq.op (r : TraceReq) (s : State) : Async := { mkOp s r.core r.ctx r.at_ [] (.walk 0) with task := r.task, level := r.level }
/-- The memory of a `TRCCTL` takes no request now: its block's, then that of the records (R313, R334). -/
def traceWaits (s : State) (r : TraceReq) : Bool :=
  let p := s.partOf r.core
  decide (r.mode ≠ 0) && (waitsIn s p r.core r.va 32 ||
    match traceBlock (r.mode == 2) r.va (readVas (r.op s) r.core r.level r.va 4 s).2 with
    | some (base, _, used) => let n := if r.mode = 2 then used else 80
      decide (n ≠ 0) && waitsIn s p r.core base n
    | none => false)
/-- TRCCTL.off: recording or binding ends, and USED is written. -/
def traceOff (s : State) (p : Nat) : State :=
  let t := (s.part p).trace
  (if t.mode = 1 then oweWord s p (t.block + 16) t.pos else s).modPart p fun q => { q with trace := { t with mode := 0, starts := [] } }
/-- The START records are read here, once, for the partition's cores as they are now; the PLACE records are read as launches come
(DESIGN CHOICE, log entry 78). -/
def runTrace (r : TraceReq) (s : State) : State :=
  let p := s.partOf r.core
  let who := r.op s
  let w := readVas who r.core r.level r.va 4 s
  let s := w.1
  match traceBlock (r.mode == 2) r.va w.2 with
  | none => s.modPart p fun q => { q with trace := { Trace.off with err := true } }
  | some (base, size, used) =>
    let sc := if r.mode = 2 then traceScan who p base used (used / 16) s 0 [] [] else (s, (s.part p).cfg.cores, [])
    let t : Trace := { Trace.off with
      mode := r.mode, base := base, size := size, used := used, block := r.va, seq0 := (s.part p).nextSeq, cores := sc.2.1, starts := sc.2.2 }
    let first := readVa who sc.1 r.core r.level base 1
    let t := if r.mode = 2 then t.bound (if first.2 = some 1 ∧ 80 ≤ used then 80 else 0) else t
    let s := (if r.mode = 2 then first.1 else sc.1).modPart p fun q => { q with trace := t }
    if r.mode = 1 then traceWrite s p (coresRecord (s.part p).cfg.cores) else s
def TraceReq.run (r : TraceReq) (s : State) : State := if r.mode = 0 then traceOff s (s.partOf r.core) else runTrace r s
/-- `TRCCTL`s of a partition take effect in order; from the first whose memory takes no request they stay pending, and no bundle freezes
for them (R13, R31; DESIGN CHOICE, log entry 80). -/
def runTraces (p : Nat) : List TraceReq → State → State
  | [], s => s.modPart p fun q => { q with tracePend := [] }
  | r :: rest, s => if traceWaits s r then s.modPart p fun q => { q with tracePend := r :: rest } else runTraces p rest (r.run s)
/-- What is pending goes on as far as it can. -/
def payTraces (s : State) (p : Nat) : State :=
  if (s.part p).tracePend.isEmpty then s else runTraces p (s.part p).tracePend s
/-- TRCCTL (R308). -/
def opTrcctl (mode : Nat) (va : Iss → Nat) : Op :=
  { priv := true
    run := fun i s =>
      let p := s.partOf i.core
      .ok (runTraces p ((s.part p).tracePend ++ [⟨mode, va i, i.core, i.ctx, i.me.info.task, i.me.level, i.at_⟩]) s) }
def opTrcctlOff : Op := opTrcctl 0 fun _ => 0
def opTrcctlRec (a : Nat) : Op := opTrcctl 1 fun i => (i.regs.rg a).toNat
def opTrcctlBind (a : Nat) : Op := opTrcctl 2 fun i => (i.regs.rg a).toNat

/-- IDLE (R274): the bundle commits, then the context freezes until a monitor observes or TQPROD rises. -/
def opIdle : Op :=
  { priv := true
    run := fun i s => .ok (s.modCtx i.core i.ctx fun k =>
      { k with dep := some (.idle (s.part (s.partOf i.core)).tqprod k.obs) }) }

def execEret (s : State) : Out := issueOne .eret opEret s
def execSrdp (d sr idx : Nat) (s : State) : Out := issueOne (.srdp d sr idx) (opSrdp d sr idx) s
def execSwrp (a sr idx : Nat) (s : State) : Out := issueOne (.swrp a sr idx) (opSwrp a sr idx) s
def execTlbinvPage (a c : Nat) (s : State) : Out := issueOne (.tlbinvPage a c) (opTlbinvPage a c) s
def execTlbinvAll (c : Nat) (s : State) : Out := issueOne (.tlbinvAll c) (opTlbinvAll c) s
def execTlbinvWb (a c : Nat) (s : State) : Out := issueOne (.tlbinvWb a c) (opTlbinvWb a c) s
def execCtxsvCtx (t a c : Nat) (s : State) : Out := issueOne (.ctxsvCtx t a c) (opCtxsvCtx t a c) s
def execCtxsvCore (t a c : Nat) (s : State) : Out := issueOne (.ctxsvCore t a c) (opCtxsvCore t a c) s
def execCtxldCtx (t a c : Nat) (s : State) : Out := issueOne (.ctxldCtx t a c) (opCtxldCtx t a c) s
def execCtxldCore (t a c : Nat) (s : State) : Out := issueOne (.ctxldCore t a c) (opCtxldCore t a c) s
def execTrcctlOff (s : State) : Out := issueOne .trcctlOff opTrcctlOff s
def execTrcctlRec (a : Nat) (s : State) : Out := issueOne (.trcctlRec a) (opTrcctlRec a) s
def execTrcctlBind (a : Nat) (s : State) : Out := issueOne (.trcctlBind a) (opTrcctlBind a) s
def execIdle (s : State) : Out := issueOne .idle opIdle s

end Sys2Proof.Machine
end

