-- ==== Sys2Proof/Machine/Comm.lean ====
section
/-!
DEFINITION. The rest of the C slot (R176 to R194): channels, near-memory commands, fences, stamps, monitors, atomics, shelf
requests, bound registers, companding tables, collectives and translation prefetch.
-/

namespace Sys2Proof.Machine

open Sys2Proof

/-- A register source of a C-slot instruction, or its zero-extended extension (R178, R184). -/
def Iss.val (i : Iss) (e : Option Nat) (g : Nat) : Nat := (gOrZext i.regs e g).toNat
/-- What a write of the own scratchpad that performs `lat` cycles on waits for: a granule due by then whose data are missing. -/
def writeWait (i : Iss) (s : State) (lat : Nat) (gas : List Nat) : Wait :=
  match (pendingGrans s i.core i.ctx).find? (fun p =>
    (decide (p.1 ≤ i.lt) || (decide (p.1 ≤ i.lt + lat) && p.2.left != 0)) && gas.any fun ga => ga / 64 == p.2.base) with
  | some p => .dep (.granule p.2.base lat)
  | none => .ok
/-- An address of `n` bytes in the own scratchpad, aligned; its physical bytes in a view. -/
def ownRange (i : Iss) (swz : Bool) (align n va : Nat) : Except Stop (List Nat) :=
  if va % align ≠ 0 then i.trap 0x13 va
  else if !i.inOwn va n then i.trap 0x12 va
  else match i.gas swz n va with
    | some gas => .ok gas
    | none => i.trap 0x14 va
/-- The window fault of a range (R80), then the allocation-format fault of its bytes in the own scratchpad, read or written in the
swizzled view (R84, R85): the view code changes at multiples of 64 KiB. -/
def rangeCheck (i : Iss) (s : State) (va n : Nat) : Except Stop Unit :=
  match rangeHole i s va n with
  | some a => i.trap 0x11 a
  | none =>
    match (if n = 0 then [] else va :: steps va n (2 ^ 16)).find? fun a => i.inOwn a 1 && (i.gas true 1 a).isNone with
    | some a => i.trap 0x14 a
    | none => .ok ()
/-- Earlier operations of the context of a kind. -/
def earlier (s : State) (c x : Nat) (f : OpK → Bool) : List Nat := ((s.mine c x).filter fun a => f a.kind).map (·.id)

/-! ### Channels (R44, R45, R176 to R178) -/

/-- Beats of a channel of a context still on their way. -/
def beatsBefore (s : State) (c x ch : Nat) : List Nat :=
  earlier s c x fun k => match k with | .beat _ b _ => b.schan == ch | _ => false
/-- Beats put on their way in order. -/
def postBeats (i : Iss) (bind : SendBind) (ch : Nat) : State → List (BitVec 512) → State
  | s, [] => s
  | s, d :: rest =>
    let b : Beat := ⟨i.ltime, d, false, i.core, i.ctx, ch, i.me.info.task⟩
    postBeats i bind ch (s.post (mkOp s i.core i.ctx i.at_ (beatsBefore s i.core i.ctx ch) (.beat bind b false))) rest
/-- `SEND` with its beats at hand. -/
def sendBeats (i : Iss) (s : State) (ch : Nat) (bind : SendBind) (data : List (BitVec 512)) : State :=
  let n := data.length
  let s := s.modCtx i.core i.ctx fun k => { k with outBeats := k.outBeats.put 0 ch (k.outBeats.get 0 ch + n) }
  let s := postBeats i bind ch s data
  s.charge i.core i.ctx (if bind.peer = 0 then 0 else fabricCharge (64 * n))
/-- Credit for `nb` beats (R44). -/
def creditWait (i : Iss) (s : State) (ch nb : Nat) : Wait :=
  let k := s.ctx i.core i.ctx
  if (k.sends.find ch).isSome && decide (k.outBeats.get 0 ch + nb > 256) then .dep (.credit ch nb) else .ok
def sendBind (i : Iss) (ch : Nat) : Except Stop SendBind :=
  match i.me.sends.find ch with
  | some b => .ok b
  | none => i.trap 0x0C
/-- 64-byte beats of a number, lowest first. -/
def beatData (nb x : Nat) : List (BitVec 512) := (List.range nb).map fun b => BitVec.ofNat 512 (x >>> (512 * b))
/-- SEND, register form (R177); NB holds one less than the count. -/
def opSend (ch vs nb : Nat) : Op :=
  { wait := fun i s => creditWait i s ch (nb + 1)
    run := fun i s => do
      let bind ← sendBind i ch
      i.outward
      .ok (sendBeats i s ch bind (beatData (nb + 1) (i.regs.rv vs).bits.toNat)) }
/-- SEND, memory form (R177). -/
def opSendMem (ch a nb : Nat) : Op :=
  { wait := fun i s =>
      match creditWait i s ch (nb + 1) with
      | .ok => sourceWait i s (64 * (nb + 1)) (i.regs.rg a).toNat
      | w => w
    run := fun i s => do
      let bind ← sendBind i ch
      let (s, bytes) ← readSource i s 64 (64 * (nb + 1)) (i.regs.rg a).toNat
      i.outward
      .ok (sendBeats i s ch bind (beatData (nb + 1) (ofBytes bytes))) }

/-- Beats in the queue (R31). -/
def recvWait (i : Iss) (s : State) (ch nb : Nat) : Wait :=
  let k := s.ctx i.core i.ctx
  if k.recvs.get false ch && decide ((k.queues.get [] ch).length < nb) then .dep (.recv ch nb) else .ok
/-- The poisoned line that a received beat stands for (R328: storage code 9). -/
def beatLine (b : Beat) : Nat := 2 ^ 90 + b.ts
/-- The beats a `RECV` takes: the timestamp trap, then the consumption of a poisoned beat (R45, R178, R326). -/
def headBeats (i : Iss) (s : State) (ch nb want : Nat) : Except Stop (List Beat) :=
  if !(i.me.recvs.get false ch) then i.trap 0x0C
  else
    let bs := (((s.ctx i.core i.ctx).queues.get [] ch).take nb)
    match bs.findIdx? (fun b => b.ts != want) with
    | some j => .error (.trap { code := 0x0B, slot := i.slot, info0 := want, info1 := ((bs[j]?).map (·.ts)).getD 0, info2 := j })
    | none => match bs.find? (·.poison) with
      | some b => .error (.consume (beatLine b) 0)
      | none => .ok bs
/-- The beats leave the queue: retained inside an open segment, else their credit goes back (R44, R50). -/
def takeBeats (i : Iss) (s : State) (ch : Nat) (bs : List Beat) : State :=
  let s := s.modCtx i.core i.ctx fun k => { k with queues := k.queues.set ch ((k.queues.get [] ch).drop bs.length) }
  match (s.ctx i.core i.ctx).seg with
  | some g => s.modCtx i.core i.ctx fun k => { k with seg := some { g with beats := g.beats.set ch (g.beats.get [] ch ++ bs) } }
  | none => returnCredits s i.core i.ctx bs
/-- RECV, register form (R178). -/
def opRecv (e : Option Nat) (ch vd nb tag gn : Nat) : Op :=
  { wait := fun i s => recvWait i s ch (nb + 1)
    run := fun i s => do
      let bs ← headBeats i s ch (nb + 1) (i.val e gn)
      let bits := pack 512 (bs.map fun b => b.data.toNat)
      .ok (i.emit 1 (.v vd ⟨BitVec.ofNat 2048 bits, tag⟩) (takeBeats i s ch bs)) }
/-- RECV, memory form (R178): the writes perform at the next cycle, in the swizzled view.  A breach of the address rules is reported
before the channel's traps (DESIGN CHOICE, log entry 24). -/
def opRecvMem (e : Option Nat) (ch a nb gn : Nat) : Op :=
  { wait := fun i s =>
      match recvWait i s ch (nb + 1) with
      | .ok =>
        let va := (i.regs.rg a).toNat
        if i.inOwn va (64 * (nb + 1)) then writeWait i s 1 ((i.gas true (64 * (nb + 1)) va).getD []) else .ok
      | w => w
    run := fun i s => do
      let gas ← ownRange i true 64 (64 * (nb + 1)) (i.regs.rg a).toNat
      let bs ← headBeats i s ch (nb + 1) (i.val e gn)
      let bytes := gas.zip (bs.flatMap fun b => toBytes 64 b.data.toNat)
      let s ← i.reserve ((unitsOf bytes).map fun u => (0, u)) s
      .ok (i.emit 1 (.cstore bytes none) (takeBeats i s ch bs)) }

/-! ### Near-memory commands (R96, R179, R182) -/

/-- The descriptor of R179 in 64 bytes. -/
def nmDesc (b : List Byte) : NmDesc :=
  let x := ofBytes b
  { op := bits x 0 8, fmt := bits x 8 8, count := bits x 32 32, dst := bits x 64 64, src := bits x 128 64, alpha := bits x 192 32,
    beta := bits x 224 32, stat := bits x 256 64 }
def NmDesc.size (d : NmDesc) : Nat := if d.fmt = 8 then 2 else 4
/-- The command reads its source range. -/
def NmDesc.reads (d : NmDesc) : Bool := d.op == 0 || d.op == 3 || d.op == 4
/-- Bytes of its destination range: one FP32 element for REDUCE. -/
def NmDesc.dstBytes (d : NmDesc) : Nat := if d.op = 4 then 4 else d.count * d.size
def NmDesc.srcBytes (d : NmDesc) : Nat := d.count * d.size
/-- The near-memory descriptor fault's conditions. -/
def nmBad (b : List Byte) : Bool :=
  let x := ofBytes b
  let d := nmDesc b
  decide (d.op > 4) || (d.fmt != 8 && d.fmt != 10) || bits x 16 16 != 0 || bits x 320 192 != 0 ||
  ((d.op == 1 || d.op == 2) && d.src != 0) || (d.op != 0 && d.beta != 0) ||
  decide (d.count = 0 ∨ d.count > 2 ^ 28) || d.dst % 64 != 0 || d.src % 64 != 0 || d.stat % 8 != 0 ||
  (d.reads && decide (d.dst < d.src + d.srcBytes ∧ d.src < d.dst + d.dstBytes) &&
    !(d.dst == d.src && d.dstBytes == d.srcBytes))
/-- The stack a command goes to: that of its destination, none where it does not lead to HBM4. -/
def nmStack (s : State) (c lvl : Nat) (d : NmDesc) : Option Nat :=
  match xlate s c lvl .write d.dst with
  | .ok x => if x.cls = 3 then stackOf x.ga else none
  | .error _ => none
/-- NMCMD (R179); the completion word is judged before the descriptor (DESIGN CHOICE, log entry 24). -/
def opNmcmd (a c : Nat) : Op :=
  { wait := fun i s =>
      if (s.ctx i.core i.ctx).nmOut ≥ 8 then .dep .nmQueue else sourceWait i s 64 (i.regs.rg a).toNat
    run := fun i s => do
      let cw ← readCword i s c 0
      let (s, b) ← readSource i s 64 64 (i.regs.rg a).toNat
      if nmBad b then i.trap 0x1E
      else do
        let d := nmDesc b
        if d.stat = 0 then .ok () else rangeCheck i s d.stat 8
        i.outward
        let j := (s.core i.core).j
        let (s, cw) ← i.cwRelease cw s
        let after := fenced s i.core i.ctx true ++ nmFenced s i.core i.ctx [d.dst]
        let id := s.nextId
        let s := s.post { mkOp s i.core i.ctx i.at_ after (.nmcmd d cw (nmStack s i.core i.me.level d) none) with j := j }
        let s := s.modCtx i.core i.ctx fun k => { k with nmOut := k.nmOut + 1, nmUnfenced := k.nmUnfenced ++ [id] }
        .ok (s.charge i.core i.ctx (copyCharge d.dstBytes)) }
/-- Stacks that hold one of these commands or its busy range. -/
def stacksOf (s : State) (cmds : List Nat) : List Nat :=
  (List.range 12).filter fun t =>
    (s.ops.any fun a => cmds.contains a.id && (match a.kind with | .nmcmd _ _ (some u) _ => u == t | _ => false)) ||
    ((s.hbmStacks.get Stack.reset t).busy.any fun b => cmds.contains b.1)
/-- NMFENCE (R96, R182): goes to every stack that holds a command of the context not yet fenced. -/
def opNmfence : Op :=
  { run := fun i s =>
      let k := s.ctx i.core i.ctx
      let hbmStacks := stacksOf s k.nmUnfenced
      let s' := s.modCtx i.core i.ctx fun k => { k with nmUnfenced := [] }
      if hbmStacks.isEmpty then .ok s'
      else
        let id := s.nextId
        let s' := s'.post (mkOp s i.core i.ctx i.at_ [] (.nmfence hbmStacks k.nmUnfenced))
        .ok (s'.modCtx i.core i.ctx fun k => { k with nmFences := k.nmFences ++ [id] }) }

/-! ### Fences, stamps, monitors (R91 to R95, R183 to R185) -/

/-- Releases that a fence of a scope acquires, by what atomics of the context have read before it (R98). -/
def fenceAcquire (i : Iss) (scope : Nat) : State → List Rel → State
  | s, [] => s
  | s, r :: rest => fenceAcquire i scope (if scope ≥ scopeOf r.core i.core then acquire s i.core scope r else s) rest
/-- FENCE (R94, R95, R183): it acquires, then releases what the context knows with that (R98); of domain scope it follows every access to
peer and shelf memory (R319). -/
def opFence (scope : Nat) : Op :=
  { run := fun i s => do
      let k := s.ctx i.core i.ctx
      let (s, r) ← i.release scope (fenceAcquire i scope s k.seen)
      let before := earlier s i.core i.ctx OpK.isAccess ++ (if scope = 5 then farBefore s i.core i.ctx else [])
      let live := fun (l : List Nat) => l.filter fun d => !s.isDone d
      .ok (s.modCtx i.core i.ctx fun k => { k with
        lastFence := some ({ r with atom := true }.after k.lastFence)
        seen := k.seen.filter fun r => decide (scope < Nat.max r.scope (scopeOf r.core i.core))
        fences := ((k.fences ++ [(scope, (s.core i.core).j, before)]).map fun f => (f.1, f.2.1, live f.2.2)).filter fun f => !f.2.2.isEmpty
        regs := { k.regs with unfenced := k.regs.unfenced.filter fun u => decide (u.iss ≥ i.lt) } }) }

/-- STAMP (R91, R184): elsewhere than in the own scratchpad it is posted after all that precedes it; in the own scratchpad it writes two
cycles on, or, while something that precedes it has not performed, is posted after it (R91, R319; DEDUCED, log entry 66).  An open
segment's log takes its granule as it is at the issue (R49). -/
def opStamp (e : Option Nat) (scope a gv : Nat) : Op :=
  { wait := fun i s =>
      let va := (i.regs.rg a).toNat
      if va % 8 = 0 ∧ i.inOwn va 8 then writeWait i s 2 ((i.gas false 8 va).getD []) else .ok
    run := fun i s => do
      let va := (i.regs.rg a).toNat
      if va % 8 ≠ 0 then i.trap 0x13 va
      else
        holeCheck i s va
        let v := i.val e gv
        let j := (s.core i.core).j
        let before := allBefore s i.core i.ctx
        if i.inOwn va 8 then do
          let bytes := ((i.gas false 8 va).getD []).zip (toBytes 8 v)
          let s ← i.reserve ((unitsOf bytes).map fun u => (0, u)) s
          let (s, r) ← i.release scope s
          if before.isEmpty then .ok (i.emit 2 (.cstore bytes (some r)) (noteJoin i s))
          else
            let s := logUnits s i.core i.ctx 0 (unitsOf bytes)
            .ok (noteJoin i (s.post { mkOp s i.core i.ctx i.at_ before (.ownStamp bytes r) with j := j }))
        else do
          i.outward
          let (s, r) ← i.release scope s
          let s := s.post { mkOp s i.core i.ctx i.at_ before (.stamp va v r) with j := j }
          .ok (noteJoin i (s.charge i.core i.ctx (fabricCharge (farBytes i s (seqFrom va 8))))) }

/-- MONARM (R92, R185): an own-scratchpad arm reads at its issue; any other posts its read. -/
def opMonarm (mon a : Nat) : Op :=
  { run := fun i s => do
      let va := (i.regs.rg a).toNat
      if va % 8 ≠ 0 then i.trap 0x13 va
      else
        holeCheck i s va
        let put := fun (m : Monitor) (s : State) => s.modCtx i.core i.ctx fun k => { k with mons := k.mons.set mon m }
        match i.inOwn va 8, i.gas false 8 va with
        | true, some (ga :: gas) =>
          let _ ← consumeAt s (ga :: gas) va
          .ok (put ⟨true, ga, some (readNat s.mem 8 ga), (s.locKnow.find ga).filter (!·.atom), none⟩ s)
        | _, _ =>
          let after := fenced s i.core i.ctx true ++ sameGranule s i.core i.ctx [va / 64] ++ nmFenced s i.core i.ctx [va]
          let id := s.nextId
          .ok (put ⟨true, 0, none, none, some id⟩ (s.post (mkOp s i.core i.ctx i.at_ after (.monRead mon va)))) }

/-! ### Atomics (R99, R186 to R189) -/

/-- Operand and compare value of an atomic, at its width. -/
def atomOperand (i : Iss) (w b : Nat) : Nat := (i.regs.rg b).toNat % 2 ^ (8 * atomBytes w)
/-- Checks of target and return address in common: alignment, then the return's class; the return's bytes. -/
def atomChecks (i : Iss) (w a rt : Nat) : Except Stop (List Nat) :=
  let n := atomBytes w
  let va := (i.regs.rg a).toNat
  if va % n ≠ 0 then i.trap 0x13 va
  else if rt = 0 then .ok []
  else ownRange i false n n (i.regs.rg rt).toNat
/-- The claim that an atomic's return makes, a scheduled transfer of one granule (R29, R187). -/
def returnWait (i : Iss) (s : State) (rt : Nat) : Wait := if rt = 0 then .ok else skidWait i s 64
/-- An atomic on its way to its endpoint, with its return as a scheduled transfer of the target's class. -/
def postAtomic (i : Iss) (s : State) (remote : Bool) (cls op w a b : Nat) (ret : List Nat) : State :=
  let va := (i.regs.rg a).toNat
  let lat := schedLat i.me cls
  let s := if ret.isEmpty then s else addXfer i s lat 64 [⟨ret.headD 0 / 64, 1, ret, [], false⟩]
  let after := fenced s i.core i.ctx true ++ sameGranule s i.core i.ctx [va / 64] ++ nmFenced s i.core i.ctx [va] ++
    earlier s i.core i.ctx fun k => match k with | .atom .. => true | _ => false
  s.post (mkOp s i.core i.ctx i.at_ after
    (.atom remote va op w (atomOperand i w b) (atomOperand i w (b + 1)) ret (s.ctx i.core i.ctx).lastFence))
/-- ATOM (R186, R187). -/
def opAtom (op w a b rt : Nat) : Op :=
  { wait := fun i s =>
      let va := (i.regs.rg a).toNat
      let n := atomBytes w
      if va % n ≠ 0 then .ok
      else if i.inOwn va n then writeWait i s 2 ((i.gas false n va).getD [])
      else returnWait i s rt
    run := fun i s => do
      let n := atomBytes w
      let va := (i.regs.rg a).toNat
      let ret ← atomChecks i w a rt
      if i.inOwn va n then do
        let gas := (i.gas false n va).getD []
        let s ← i.reserve ((unitsOf ((gas ++ ret).map fun g => (g, 0))).map fun u => (0, u)) s
        .ok (i.emit 2 (.atom (gas.headD 0) op w (atomOperand i w b) (atomOperand i w (b + 1)) ret
          (s.ctx i.core i.ctx).lastFence) s)
      else do
        holeCheck i s va
        let cls := match xlate s i.core i.me.level .atomic va with
          | .ok x => x.cls
          | .error _ => if inWindow va ∨ va < shelfBase then 3 else 5
        if cls = 5 ∨ cls = 6 then i.trap 0x12 va
        else if cls = 7 ∧ !bit s.fabric.hostAtomics (3 * op + w) then i.trap 0x20 va
        else do
          i.outward
          .ok (postAtomic i s false cls op w a b ret) }

/-- A destination's far side performs an atomic (R314, R315); of one that no live port reaches it shows when the request goes out. -/
def farPerforms (s : State) (dest op w : Nat) : Bool :=
  match livePort s dest with
  | some p => bit (portFw (s.fabric.ports.get Port.reset p) 0) (3 * op + w)
  | none => true
/-- The FEAT0 bit an `ATOMR` needs (R348). -/
def atomrFeat (op : Nat) : Nat := if op < 10 then 3 else 4
/-- ATOMR (R188, R189). -/
def opAtomr (op w a b rt : Nat) : Op :=
  { feat := some (atomrFeat op)
    wait := fun i s => returnWait i s rt
    run := fun i s => do
      let va := (i.regs.rg a).toNat
      let ret ← atomChecks i w a rt
      if inWindow va then i.trap 0x12 va
      else
        let place := match xlate s i.core i.me.level .atomic va with
          | .ok x => (x.cls, some (x.ga / 2 ^ 48 - 1))
          | .error _ => (if va ≥ shelfBase then 5 else 6, none)
        if place.1 ≠ 5 ∧ place.1 ≠ 6 then i.trap 0x12 va
        else if !((place.2.map fun d => farPerforms s d op w).getD true) then i.trap 0x20 va
        else do
          i.outward
          let s := s.charge i.core i.ctx (fabricCharge 64)
          .ok (postAtomic i s true place.1 op w a b ret) }

/-! ### Shelf requests (R190) -/

/-- A shelf request: its result dword is a scheduled transfer of the shelf class, in the swizzled view (R86). -/
def shelfRequest (i : Iss) (s : State) (rt : Nat) (k : List Nat → OpK) : Except Stop State := do
  if rt = 0 then i.trap 0x03
  else
    let ret ← ownRange i true 8 8 (i.regs.rg rt).toNat
    i.outward
    let s := addXfer i s (schedLat i.me 5) 64 [⟨ret.headD 0 / 64, 1, ret, [], false⟩]
    .ok (s.post (mkOp s i.core i.ctx i.at_ (fenced s i.core i.ctx true) (k ret)))
def opShalloc (gs rt : Nat) (mir : Bool) : Op :=
  { feat := if mir then some 2 else none
    wait := fun i s => returnWait i s rt
    run := fun i s => shelfRequest i s rt (.shalloc (i.regs.rg gs).toNat mir) }
def opShfree (a rt : Nat) : Op :=
  { wait := fun i s => returnWait i s rt
    run := fun i s => shelfRequest i s rt (.shfree (i.regs.rg a).toNat) }

/-! ### Bound registers and companding tables (R74, R191, R192) -/

/-- The bound-register fault's condition. -/
def boundBad (lo hi : Word) (fk : Bool) : Bool :=
  if fk then
    let a := decodeVal 10 (lo.toNat % 2 ^ 32)
    let b := decodeVal 10 (hi.toNat % 2 ^ 32)
    a.isNan || b.isNan || decide (cmpVal a b > 0)
  else decide (lo.toInt > hi.toInt)
/-- BNDSET (R191). -/
def opBndset (bd lo hi mode : Nat) (fk : Bool) : Op :=
  { run := fun i s =>
      let l := i.regs.rg lo
      let h := i.regs.rg hi
      if boundBad l h fk then i.trap 0x21 else .ok (i.emit 2 (.bd bd ⟨l, h, fk, mode⟩) s) }

/-- Breakpoints that R74 admits: +0, then positive finite codes strictly rising. -/
def curveOk : List Nat → Bool
  | [] => false
  | z :: rest => z == 0 && rising 0 rest
where
  /-- Codes strictly rising above a floor and finite. -/
  rising : Nat → List Nat → Bool
    | _, [] => true
    | lo, x :: rest => decide (lo < x ∧ x < 0x7F800000) && rising x rest
/-- CTSET (R192). -/
def opCtset (ct a : Nat) : Op :=
  { wait := fun i s => sourceWait i s 136 (i.regs.rg a).toNat
    run := fun i s => do
      let (s, b) ← readSource i s 8 136 (i.regs.rg a).toNat
      let w := elems 32 34 (ofBytes b)
      let xs := (List.range 17).map fun j => w.getD (2 * j) 0
      let ys := (List.range 17).map fun j => w.getD (2 * j + 1) 0
      if curveOk xs && curveOk ys then .ok (i.emit 12 (.ct ct ⟨xs, ys⟩) s) else i.trap 0x22 }

/-! ### Collectives and prefetch (R193, R194) -/

/-- The descriptor of R193 in 64 bytes. -/
def collDesc (b : List Byte) : CollDesc :=
  let x := ofBytes b
  { op := bits x 0 8, fmt := bits x 8 8, red := bits x 16 8, count := bits x 32 32, src := bits x 64 64, dst := bits x 128 64,
    group := bits x 192 32, nrank := bits x 224 16, rank := bits x 240 16, root := bits x 256 16 }
/-- The collective descriptor fault's conditions. -/
def collBad (b : List Byte) : Bool :=
  let x := ofBytes b
  let d := collDesc b
  decide (d.op > 3) || !([3, 8, 10].contains d.fmt) || decide (d.red > 2) || (decide (d.op ≥ 2) && d.red != 0) ||
  bits x 24 8 != 0 || bits x 272 240 != 0 || decide (d.count = 0 ∨ d.count > 2 ^ 30) || d.src % 64 != 0 || d.dst % 64 != 0 ||
  decide (d.nrank < 2 ∨ d.nrank > 4096) || decide (d.rank ≥ d.nrank) ||
  (if d.op = 3 then decide (d.root ≥ d.nrank) else d.root != 0) || (d.op == 1 && d.count % d.nrank != 0)
/-- Collectives of a context in the engine's queue. -/
def collQueued (s : State) (c x : Nat) : Nat := (earlier s c x fun k => match k with | .coll .. => true | _ => false).length
/-- Dependences of COLL: room in the queue, due granules of the descriptor and of a source in the own scratchpad (R27). -/
def collWait (a : Nat) (i : Iss) (s : State) : Wait :=
  if collQueued s i.core i.ctx ≥ 4 then .dep .collQueue
  else match sourceWait i s 64 (i.regs.rg a).toNat, readSource i s 64 64 (i.regs.rg a).toNat with
    | .ok, .ok (_, b) => if collBad b then .ok else sourceWait i s (collDesc b).srcBytes (collDesc b).src
    | w, _ => w
/-- COLL (R193).  A source in the own scratchpad is read at the issue (R27), but for a poisoned one, which the engine consumes.  The completion
word is judged before the descriptor (DESIGN CHOICE, log entry 24). -/
def opColl (a c : Nat) : Op :=
  { wait := collWait a
    run := fun i s => do
      let cw ← readCword i s c 0
      let (s, b) ← readSource i s 64 64 (i.regs.rg a).toNat
      if collBad b then i.trap 0x1F
      else do
        let d := collDesc b
        let n := d.srcBytes
        rangeCheck i s d.src n
        rangeCheck i s d.dst d.dstBytes
        let gas ← if n ≠ 0 ∧ i.inOwn d.src n then sourceGas i s n d.src else .ok []
        i.outward
        let q := if gas.isEmpty || gas.any (fun ga => s.poisoned (ga / 64)) then (s, none)
          else let r := sourceBytes i s gas; (r.1, some r.2)
        let j := (s.core i.core).j
        let (s, cw) ← i.cwRelease cw q.1
        let after := fenced s i.core i.ctx true ++ nmFenced s i.core i.ctx [d.src, d.dst]
        let s := s.charge i.core i.ctx (copyCharge d.dstBytes)
        .ok (s.post { mkOp s i.core i.ctx i.at_ after (.coll d cw Slow.none q.2) with j := j }) }

/-- Walks asked for, one for each 64 KiB page of the range. -/
def postWalks (i : Iss) (va : Nat) : State → Nat → State
  | s, 0 => s
  | s, n + 1 =>
    let s := postWalks i va s n
    s.post (mkOp s i.core i.ctx i.at_ [] (.walk ((va + n * 2 ^ 16) % 2 ^ 57)))
/-- PREF (R194), which raises nothing; an address of 2^57 or more is taken modulo 2^57 (DESIGN CHOICE, log entry 86). -/
def opPref (a sz : Nat) : Op :=
  { run := fun i s =>
      let va := (i.regs.rg a).toNat % 2 ^ 57
      .ok (postWalks i (va / 2 ^ 16 * 2 ^ 16) s ((va % 2 ^ 16 + 2 ^ (12 + sz) + 2 ^ 16 - 1) / 2 ^ 16)) }

/-! ### Meanings -/

def execSend (ch vs nb : Nat) (s : State) : Out := issueOne (.send ch vs nb) (opSend ch vs nb) s
def execSendMem (ch a nb : Nat) (s : State) : Out := issueOne (.sendMem ch a nb) (opSendMem ch a nb) s
def execRecv (e : Option Nat) (ch vd nb tag gn : Nat) (s : State) : Out :=
  issueOne (.recv e ch vd nb tag gn) (opRecv e ch vd nb tag gn) s
def execRecvMem (e : Option Nat) (ch a nb gn : Nat) (s : State) : Out :=
  issueOne (.recvMem e ch a nb gn) (opRecvMem e ch a nb gn) s
def execNmcmd (a c : Nat) (s : State) : Out := issueOne (.nmcmd a c) (opNmcmd a c) s
def execNmfence (s : State) : Out := issueOne .nmfence opNmfence s
def execFence (scope : Nat) (s : State) : Out := issueOne (.fence scope) (opFence scope) s
def execAtom (op w a b rt : Nat) (s : State) : Out := issueOne (.atom op w a b rt) (opAtom op w a b rt) s
def execAtomr (op w a b rt : Nat) (s : State) : Out := issueOne (.atomr op w a b rt) (opAtomr op w a b rt) s
def execShalloc (gs rt : Nat) (mir : Bool) (s : State) : Out := issueOne (.shalloc gs rt mir) (opShalloc gs rt mir) s
def execShfree (a rt : Nat) (s : State) : Out := issueOne (.shfree a rt) (opShfree a rt) s
def execStamp (e : Option Nat) (scope a gv : Nat) (s : State) : Out := issueOne (.stamp e scope a gv) (opStamp e scope a gv) s
def execMonarm (mon a : Nat) (s : State) : Out := issueOne (.monarm mon a) (opMonarm mon a) s
def execBndset (bd lo hi mode : Nat) (fk : Bool) (s : State) : Out :=
  issueOne (.bndset bd lo hi mode fk) (opBndset bd lo hi mode fk) s
def execCtset (ct a : Nat) (s : State) : Out := issueOne (.ctset ct a) (opCtset ct a) s
def execColl (a c : Nat) (s : State) : Out := issueOne (.coll a c) (opColl a c) s
def execPref (a sz : Nat) (s : State) : Out := issueOne (.pref a sz) (opPref a sz) s

end Sys2Proof.Machine
end

