-- ==== Sys2Proof/Machine/Endpoint.lean ====
section
/-!
DEFINITION. What stands at the end of an access made away from the core: where it leads, the ports on its way, the checks it meets there,
how it fails, how data reach a scheduled transfer, and how an operation completes (R19, R82, R89, R91, R96, R102 to R105, R168, R173,
R319, R326).
-/

namespace Sys2Proof.Machine

open Sys2Proof

/-! ### Events -/

/-- An event takes place where its conditions hold and otherwise not. -/
def event (s : State) (r : Option State) : Out := .next (r.getD s)
/-- The issuing context still holds the part. -/
def State.holder (s : State) (a : Async) : Bool :=
  (s.ctx a.core a.ctx).holds && (s.ctx a.core a.ctx).info.task == a.task
/-- Zone map of the issuing task (R84). -/
def State.zmapOf (s : State) (a : Async) : Nat :=
  if s.holder a then (s.ctx a.core a.ctx).info.zmap
  else ((s.tasks.find? fun t => t.id == a.task).map (·.info.zmap)).getD 0

/-! ### Where an access leads (R281, R295, R313, R317) -/

/-- An access on its way: a stack on its path is paused or no port of its route is up, its translation fails, its destination is
unreachable, or it arrives. -/
inductive Reach where
  | wait
  | bad (f : XFail)
  | gone
  | ok (x : Xl)
  deriving DecidableEq, Repr
/-- The way of a request out of the module, by the partition stamped on it (R295). -/
def route (s : State) (a : Async) (k : AccKind) (va : Nat) : Reach :=
  if walkPaused s a.part a.core va then .wait
  else match xlateP s a.part a.core a.level k va with
    | .error f => .bad f
    | .ok x =>
      if unreachable s x.ga then .gone else if held s x.ga then .wait else .ok x
/-- The way of a request whose response is at hand. -/
def reach (s : State) (a : Async) (k : AccKind) (va : Nat) : Reach :=
  match route s a k va with
  | .ok x => if refused s a.part x then .bad .grant else .ok x
  | r => r

/-! ### Ports (R19, R20, R292) -/

/-- Where an address leads, whatever the rights. -/
def anyGa (s : State) (a : Async) (va : Nat) : Nat :=
  match (if inWindow va then windowXl s a.part a.core (va - windowBase) else pagedXl s a.part a.core va) with
  | .ok x => x.ga / 64
  | .error _ => 2 ^ 100 + va / 64
/-- The fabric's egress and ingress tables (R140). -/
def egressPort : Nat := slotKey 0 6
def ingressPort : Nat := slotKey 0 7
/-- The port of an HBM4 stack. -/
def stackPort (t : Nat) : Nat := 3072 + t
/-- The ports of the stacks that a walk for an address reads (R283). -/
def walkPorts (s : State) (a : Async) (va : Nat) : List Nat :=
  if (s.part a.part).tcbOk then ((pathLines s va 3 (s.part a.part).root).filterMap fun l => stackOf (64 * l)).map stackPort else []
/-- An access at an address misses the TLBs and walks (R283). -/
def misses (s : State) (a : Async) (va : Nat) : Bool :=
  decide (va < shelfBase) && (tlbHit s a.part a.core va).isNone && (kmapXl (s.part a.part).cfg va).isNone
/-- The ports before the memory that an operation's access at an address goes to, those of its walk among them; host and second-tier
memory have none. -/
def portAt (s : State) (a : Async) (va : Nat) : List Nat :=
  let ga := 64 * anyGa s a va
  (if misses s a va then walkPorts s a va else []) ++
  (if ga ≥ 64 * 2 ^ 100 then []
    else if (stackOf ga).isSome then (stackOf ga).toList.map stackPort
    else if (destOf ga).isSome then [egressPort]
    else if homeOf ga = 2 then [slotKey a.core 1]
    else if homeOf ga = 3 then [slotKey a.core 2]
    else [])
/-- LGROUP of a task (R300). -/
def lgroupOf (s : State) (task : Nat) : Nat := ((s.tasks.find? fun t => t.id == task).map fun t => t.group).getD 0
/-- The slow path does not hold the copy up (R286). -/
def Slow.free (w : Slow) : Bool := w.stage == 0 || w.stage == 3
/-- Participants of a collective on other modules. -/
def Coll.far (c : Coll) : List CollRank := c.ranks.filter fun r => r.op.isNone
/-- The ports of the next unit of a collective's operation: of its registration the fabric's; then its source before it is staged, then its
destination, and the fabric. -/
def collPorts (s : State) (a : Async) (d : CollDesc) : List Nat :=
  match s.colls.find? fun c => c.ranks.any fun r => r.op == some a.id with
  | none => if (taskPeers s a.part (lgroupOf s a.task) 4).isEmpty then [] else [egressPort]
  | some c =>
    portAt s a ((if c.staged.isEmpty then d.src else d.dst) + c.chunk * d.size) ++ (if c.far.isEmpty then [] else [egressPort])
/-- The ports that an operation's next transfer unit passes, by the slot tables' numbers (R19; DEDUCED, log entry 19). -/
def portsOf (s : State) (a : Async) : List Nat :=
  let out := fun (peer : Nat) => if peer = 0 then [] else [egressPort]
  (match a.kind with
    | .copy elems sched _ w _ =>
      (match elems with
        | [] => []
        | e :: _ => if w.free then slotKey a.core 0 :: (e.src.toList.flatMap (portAt s a) ++ (if sched then [] else portAt s a e.dst)) else [])
    | .mcast src _ _ _ data _ w => if w.free then slotKey a.core 0 :: (if data.isNone then portAt s a src else []) else []
    | .nmcmd d _ stack taken =>
      if taken.isNone then stack.toList.map stackPort
      else if d.stat = 0 || (decide (a.core < 512) && inScratch d.stat 8) then [] else portAt s a d.stat
    | .beat bind _ _ => out bind.peer
    | .signal peer .. => out peer
    | .credit c .. => if c ≥ 2 ^ 20 then [egressPort] else []
    | .coll d _ w _ => if w.free then collPorts s a d else []
    | .tlbinv kind va _ => if kind = 2 ∧ (wbLeaf s a.part va).isSome = true then [egressPort] else []
    | .walk va => walkPorts s a va
    | .shalloc .. => [egressPort]
    | .shfree .. => [egressPort]
    | .arrive _ _ (_ :: _) _ _ => []
    | k => (k.touches.take 1).flatMap (portAt s a)).eraseDups
/-- The next transfer unit of an operation has been granted at each of its ports; what has gone out needs none (R19). -/
def granted (s : State) (a : Async) : Bool := a.unacked || (portsOf s a).all a.grants.contains
/-- An operation's event, once what it waits for has been done and its ports have granted its unit. -/
def onOp (s : State) (id : Nat) (f : Async → Option State) : Out :=
  event s (((s.findOp id).filter fun a => s.afterDone a && granted s a).bind f)

/-! ### The check at the endpoint (R96, R104, R285) -/

/-- The check of an access at its endpoint: busy range, then the race detector (R96, R104). -/
def endpoint (s : State) (a : Async) (x : Xl) (va : Nat) (write atomic : Bool) : Except Cause State :=
  if nmBusy s (x.ga / 64) then .error (raceCause ⟨5, 0, 0⟩ va 0)
  else if !x.chk then .ok s
  else match raceAccess s a.core a.j (a.task % 2 ^ 16) a.task (x.ga / 64) write atomic with
    | .error r => .error (raceCause r va 0)
    | .ok s => .ok s
/-- An access counts in a page of access mode 3, unless its operation has counted there (R285). -/
def counted (s : State) (a : Async) (va : Nat) (x : Xl) : State := if a.uncounted then s else countVa s a.part a.core va x

/-! ### Failure (R105, R173, R189, R326) -/

/-- A transfer whose operation has failed writes no more; its claim ends. -/
def killXfer (s : State) (a : Async) : State :=
  if s.holder a then
    s.modRegs a.core a.ctx fun r => { r with xfers := r.xfers.map fun y => if y.id = a.id then { y with dead := true } else y }
  else s
/-- A peer that refuses a request answers it (R311, R318). -/
def turnedAway (s : State) (a : Async) (k : AccKind) (va : Nat) : State :=
  match route s a k va with
  | .ok x => if refused s a.part x then s.exchange x.ga else s
  | _ => s
/-- What an access leaves that cannot be made: the mark of a poisoned table line, the answer of a peer that refuses it (R290, R311). -/
def noteMiss (s : State) (a : Async) (k : AccKind) (va : Nat) (f : XFail) : State := turnedAway (noteFail s a.core f) a k va
/-- An operation ceases with a deferred cause. -/
def failOp (s : State) (a : Async) (q : Cause) : State :=
  let s := if q.code = 0x36 ∧ q.info1 / 256 = 1 then markLine s (dieOf a.core) (q.info0 / 64) else s
  ((killXfer s a).report a q).dropOp a.id
/-- A poisoned line consumed away from the core (R326): a rewind of the open segment once in its chain; otherwise the
memory-poison fault, or the cause of a copy outside any segment. -/
def consumeFar (s : State) (a : Async) (line va : Nat) (shelf : Bool) (copy : Option Nat) : State :=
  let outside : Cause := match copy with
    | some code => { code := code, addr := va }
    | none => poisonCause line va shelf false 0
  if s.holder a then
    match (s.ctx a.core a.ctx).seg with
    | some g =>
      if g.chain.contains line then failOp s a (poisonCause line va shelf true 0)
      else rewindNow s a.core a.ctx (some line) false
    | none => failOp s a outside
  else failOp s a outside

/-! ### Data of scheduled transfers (R26 to R29) -/

/-- Bytes that reach a transfer's granules: they are held until the due cycle, and written at once when it has passed; of a
part that has ended they are written straight, where a poisoned line covered in part is consumed (R325). -/
def xferData (s : State) (a : Async) (pairs : List (Nat × Byte)) : State :=
  let mine := s.holder a && (s.ctx a.core a.ctx).regs.xfers.any fun y => y.id == a.id
  if !mine then
    let bad := partLines s pairs
    let s := s.store pairs none
    match bad with
    | [] => s
    | l :: _ => s.report a (poisonCause l 0 false false 15)
  else
    let bases := unitsOf pairs
    let take := fun (g : Gran) => if bases.contains g.base then
        { g with left := 0, data := pairs.foldl (fun m b => if b.1 / 64 = g.base then m.set b.1 b.2.toNat else m) g.data }
      else g
    let s := s.modRegs a.core a.ctx fun r => { r with
      xfers := r.xfers.map fun y => if y.id = a.id then { y with grans := y.grans.map take } else y }
    writeDue s a.core a.ctx (s.ctx a.core a.ctx).regs.ltime
/-- Every granule of an operation's transfer has been written, or the part that held the transfer has ended; one that is out
in an image keeps it. -/
def xferDone (s : State) (a : Async) : Bool :=
  if !s.holder a then !s.isOut a else ((s.ctx a.core a.ctx).regs.xfers.all fun y => y.id != a.id || y.done)

/-! ### Completion (R89, R168) -/

/-- The arrivals that a completion word sends to the cores of the task on other modules (R150, R168). -/
def signalPeers (s : State) (a : Async) (cw : CWord) : State :=
  let group := lgroupOf s a.task
  postSignals { a with after := cw.wait } group cw.bar cw.phase (if cw.ba then taskPeers s a.part group cw.tset else []) s
/-- What a completion word asks for, once its operation's writes have performed. -/
def finish (s : State) (a : Async) (cw : CWord) : State :=
  let s := signalPeers s a cw
  let stamp := if cw.st then cw.sr.map fun r => (cw.saddr, cw.val, r) else none
  match (if cw.ba then cw.ar else none), stamp with
  | some r, st => s.setOp { a with after := cw.wait, kind := .arrive cw.bar cw.phase (targetCores s a.core a.task cw.tset 0) r st }
  | none, some st => s.setOp { a with after := cw.wait, kind := .arrive cw.bar cw.phase [] st.2.2 (some st) }
  | none, none => s.dropOp a.id
/-- An operation owes an arrival to a peer module, and has not sent it. -/
def Async.owesPeer (s : State) (b : Async) (peer : Nat) : Bool :=
  match b.kind with
  | .signal p .. => p == peer && !b.unacked
  | k => k.cword.any fun cw => cw.ba && (taskPeers s b.part (lgroupOf s b.task) cw.tset).contains peer
/-- Arrivals from one context to one peer module go out in issue order (R89). -/
def peerTurn (s : State) (a : Async) (peer : Nat) : Bool :=
  !((s.mine a.core a.ctx).any fun b => b.task == a.task && decide (b.ord < a.ord) && b.owesPeer s peer)
/-- An operation owes an arrival to a core. -/
def Async.owes (s : State) (b : Async) (d : Nat) : Bool :=
  let by_ := fun (cw : CWord) => cw.ba && (targetCores s b.core b.task cw.tset 0).contains d
  match b.kind with
  | .arrive _ _ cores _ _ => cores.contains d
  | .copy _ _ cw _ _ => by_ cw
  | .nmcmd _ cw _ _ => by_ cw
  | .coll _ cw _ _ => by_ cw
  | .tlbinv _ _ cw => by_ cw
  | .save _ _ _ _ _ cw => by_ cw
  | .load _ _ _ _ cw => by_ cw
  | .mcast _ _ _ left _ cw _ => cw.ba && left.contains d
  | _ => false
/-- Arrivals from one context to one core are delivered in issue order (R89). -/
def arrivalTurn (s : State) (a : Async) (d : Nat) : Bool :=
  !((s.mine a.core a.ctx).any fun b => b.task == a.task && decide (b.ord < a.ord) && b.owes s d)

/-! ### Launch groups (R300) -/

/-- The task of a launch group on this module. -/
def groupTask (s : State) (p lgroup : Nat) : Option Task :=
  s.tasks.find? fun t => t.part == p && t.group == lgroup && decide (t.state ≤ 2)
/-- The marker of a sender on another module: its beats' credits go back over the fabric. -/
def farSender (src : Nat) : Nat := 2 ^ 20 + src

end Sys2Proof.Machine
end

