-- ==== Sys2Proof/Machine/Engines.lean ====
section
/-!
DEFINITION. The events of the copy engines, the outbound path, the channels and the atomics (R26, R44, R82, R89, R91, R92, R173,
R175, R187, R190, R271, R286, R319).
-/

namespace Sys2Proof.Machine

open Sys2Proof

/-! ### Posted stores, stamps, monitor reads (R82, R91, R160, R185, R319) -/

/-- A posted access: what it wants, its lowest address, why its endpoint is none that it may have, and its effect there. -/
structure Posted where
  kind : AccKind
  va : Nat
  bar : State → Xl → Option Cause
  effect : State → Xl → State
/-- A write of virtual bytes of one granule, which ends its operation; one that covers a poisoned line in part performs nothing
(R325). -/
def postedWrite (a : Async) (bytes : List (Nat × Byte)) (rel : Option Rel) : Posted :=
  let lo := (bytes.map (·.1)).foldl Nat.min ((bytes.headD (0, 0)).1)
  { kind := .write, va := lo, bar := fun _ _ => none
    effect := fun s x =>
      let pairs := bytes.map fun b => (x.ga + (b.1 - lo), b.2)
      match partLines s pairs with
      | l :: _ => consumeFar s a l lo (x.cls == 5) none
      | [] => (writeAt s x pairs rel).dropOp a.id }

/-- The fences committed after an operation that still hold accesses back for it: scope, and the core's join count after each (R98). -/
def fencesAfter (s : State) (a : Async) : List (Nat × Nat) :=
  ((s.ctx a.core a.ctx).fences.filter fun f => f.2.2.contains a.id).map fun f => (f.1, f.2.1)
/-- What a fence has acquired goes on with the release of that fence and with later ones of its core. -/
def Rel.passOn (core n : Nat) (vec : KV Nat) (q : Rel) : Rel :=
  let up := fun (v : KV Nat) => if KV.get 0 v (8 * core + 4) ≥ n then mergeVec vec v else v
  { q with vec := up q.vec, wider := q.wider.map fun e => (e.1, up e.2) }
/-- The releases that a completion word will make. -/
def CWord.mapRel (f : Rel → Rel) (w : CWord) : CWord := { w with ar := w.ar.map f, sr := w.sr.map f }
/-- The releases that an operation carries. -/
def OpK.mapRel (f : Rel → Rel) : OpK → OpK
  | .stamp va v r => .stamp va v (f r)
  | .ownStamp l r => .ownStamp l (f r)
  | .arrive bar ph cores r st => .arrive bar ph cores (f r) (st.map fun t => (t.1, t.2.1, f t.2.2))
  | .atom remote va op w b cmp ret rel => .atom remote va op w b cmp ret (rel.map f)
  | .copy e sched cw w st => .copy e sched (cw.mapRel f) w st
  | .mcast src dst n left data cw w => .mcast src dst n left data (cw.mapRel f) w
  | .nmcmd d cw st p => .nmcmd d (cw.mapRel f) st p
  | .coll d cw w own => .coll d (cw.mapRel f) w own
  | .tlbinv kind va cw => .tlbinv kind va (cw.mapRel f)
  | .save core tc tx va was cw => .save core tc tx va was (cw.mapRel f)
  | .load core tc tx va cw => .load core tc tx va (cw.mapRel f)
  | k => k
/-- An operation on its way carries the release of such a fence, or a later one. -/
def Async.passOn (c x n : Nat) (vec : KV Nat) (a : Async) : Async :=
  if a.core = c ∧ a.ctx = x then { a with kind := a.kind.mapRel (Rel.passOn c n vec) } else a
/-- A fence covers both parties of a release (R98). -/
def covers2 (scope c : Nat) (r : Rel) : Bool := decide (scopeOf r.core c ≤ scope ∧ scopeOf r.core c ≤ r.scope)
/-- What the issuer learns at one fence that stands after an atomic; the operations behind that fence carry it (R98). -/
def learnAt (a : Async) (r : Rel) (s : State) (f : Nat × Nat) : State :=
  if !covers2 f.1 a.core r then s
  else
    let vec := withinScope (Nat.min f.1 r.scope) r.vec
    let s := (acquire s a.core f.1 r).modCtx a.core a.ctx fun k => { k with lastFence := k.lastFence.map (Rel.passOn a.core f.2 vec) }
    { s with ops := s.ops.map (Async.passOn a.core a.ctx f.2 vec) }
/-- What the issuer learns from the value an atomic reads: at each fence after the atomic that has committed, and, where a wider one could
learn more, at those to come (R98). -/
def learn (a : Async) (s : State) (r : Rel) : State :=
  if !s.holder a then s
  else
    let fs := fencesAfter s a
    let s := fs.foldl (learnAt a r) s
    if fs.all fun f => decide (f.1 < Nat.max r.scope (scopeOf r.core a.core)) then
      s.modCtx a.core a.ctx fun k => { k with seen := r :: k.seen }
    else s
/-- An atomic at its endpoint (R187 to R189): `ATOM` on this module and the host, `ATOMR` on a peer or the shelf, each where the far side
performs it.  R187 to R189 judge the target's memory and its side at the issue; where either has changed since, the atomic performs
nothing, as at a page that does not translate or at a peer that is reached through no live port (DESIGN CHOICE, log entry 85). -/
def postedAtom (a : Async) (remote : Bool) (va op w b cmp : Nat) (ret : List Nat) (rel : Option Rel) : Posted :=
  { kind := .atomic, va := va
    bar := fun s x =>
      let far := x.cls == 5 || x.cls == 6
      let lacks := if remote then (destOf x.ga).any fun d => !farPerforms s d op w
        else x.cls == 7 && !bit s.fabric.hostAtomics (3 * op + w)
      if far != remote || (lacks && !remote) then some { code := 0x31, addr := va } else if lacks then some (goneCause va) else none
    effect := fun s x =>
      if s.poisoned (x.ga / 64) then consumeFar s a (x.ga / 64) va (x.cls == 5) none
      else
        let n := atomBytes w
        let old := readNat s.mem n x.ga
        let s := ((s.locKnow.find (x.ga / 8 * 8)).filter (·.atom)).elim s fun r => r.parts.foldl (learn a) s
        let s := writeAt s x (cells x.ga (toBytes n (atomNew op (8 * n) old b cmp))) rel
        (if ret.isEmpty then s else xferData s a (ret.zip (toBytes n old))).dropOp a.id }
/-- The posted access that an operation is. -/
def Async.posted (a : Async) : Option Posted :=
  match a.kind with
  | .store bytes => some (postedWrite a bytes none)
  | .stamp va v r => some (postedWrite a (cells va (toBytes 8 v)) (some r))
  | .arrive _ _ [] _ (some (va, v, r)) => some (postedWrite a (cells va (toBytes 8 v)) (some r))
  | .atom remote va op w b cmp ret rel => some (postedAtom a remote va op w b cmp ret rel)
  | _ => none
/-- A request to peer or shelf memory is on its way, and waits for its acknowledgement (R319). -/
def sendOut (s : State) (a : Async) (x : Xl) : State :=
  match destOf x.ga with
  | some d => (s.sendOn d).setOp { a with unacked := true, dst := x.ga, mir := x.mirror, page := (x.page, x.size) }
  | none => s
/-- A posted access: it waits, fails, performs under its endpoint's check, or goes out over the fabric. -/
def postedAccess (s : State) (a : Async) (p : Posted) : Option State :=
  if a.unacked then none
  else match route s a p.kind p.va with
    | .wait => none
    | .bad q => some (failOp (noteMiss s a p.kind p.va q) a (xfailCause q p.va))
    | .gone => some (failOp s a (goneCause p.va))
    | .ok x =>
      match p.bar s x with
      | some q => some (failOp s a q)
      | none =>
        if x.cls = 5 ∨ x.cls = 6 then some (sendOut (counted s a p.va x) a x)
        else if refused s a.part x then some (failOp s a (xfailCause .grant p.va))
        else match endpoint s a x p.va (p.kind == .write || p.kind == .atomic) (p.kind == .atomic) with
          | .error q => some (failOp s a q)
          | .ok s => some (p.effect (counted s a p.va x) x)

/-- POSTED_STORE_PERFORM. -/
def execPostedStorePerform (id : Nat) (s : State) : Out :=
  onOp s id fun a => match a.kind with
    | .store _ => a.posted.bind (postedAccess s a)
    | _ => none
/-- The open segment inside which an operation was issued, for its writes to the issuer's own scratchpad (R49, R51). -/
def ownSegment (s : State) (a : Async) (core : Nat) : Option Segment :=
  if core = a.core ∧ s.holder a = true then (s.ctx a.core a.ctx).seg.filter fun g => decide (a.id ≥ g.firstId) else none
/-- A stamp of the own scratchpad performs: inside the segment of its issue, whose log has its granule, or where no rewind undoes it any
more (R49, R51, R91). -/
def ownStamp (s : State) (a : Async) (bytes : List (Nat × Byte)) (r : Rel) : State :=
  match ownSegment s a a.core with
  | some _ => ownWrite s a.core a.ctx bytes (some r) a.at_
  | none =>
    let t := s.store bytes (some r)
    match partLines s bytes with
    | [] => t
    | l :: _ => t.report a (poisonCause l 0 false false 15)
/-- STAMP_WRITE: of a `STAMP`, or of a completion word after its arrivals. -/
def execStampWrite (id : Nat) (s : State) : Out :=
  onOp s id fun a => match a.kind with
    | .ownStamp bytes r => some ((ownStamp s a bytes r).dropOp a.id)
    | .stamp .. => a.posted.bind (postedAccess s a)
    | .arrive .. => a.posted.bind (postedAccess s a)
    | _ => none
/-- The response to a request that has gone out: the access performs at the target unless the target refuses it, and is done; of a
beat or an arrival the acknowledgement alone (R319). -/
def acknowledged (s : State) (a : Async) : State :=
  match a.posted with
  | some p =>
    let x : Xl := { ga := a.dst, cls := if p.va ≥ shelfBase then 5 else 6, mirror := a.mir }
    if refused s a.part x then failOp s a (xfailCause .grant p.va) else p.effect s x
  | none => s.dropOp a.id
/-- PEER_ACK (R311, R319). -/
def execPeerAck (id : Nat) (s : State) : Out :=
  onOp s id fun a =>
    match (if a.unacked then destOf a.dst else none) with
    | none => none
    | some d => if s.fabric.unreach.contains d || (livePort s d).isNone then none else some ((acknowledged s a).heard d)

/-- A write that a unit outside the core makes for a context, and whose failure is reported to the context and ends nothing (R181,
R301); one by the device itself is not race-checked (R102). -/
def sideWriteBy (chk : Bool) (s : State) (a : Async) (va : Nat) (bytes : List Byte) : State :=
  match reach s a .write va with
  | .wait => s
  | .bad f => (noteMiss s a .write va f).report a (xfailCause f va)
  | .gone => s.report a (goneCause va)
  | .ok x =>
    match endpoint s a { x with chk := x.chk && chk } va true false with
    | .error q => s.report a q
    | .ok s =>
      match partLines s (cells x.ga bytes) with
      | l :: _ => (s.exchange x.ga).report a (poisonCause l va (x.cls == 5) false 15)
      | [] => (writeAt (counted s a va x) x (cells x.ga bytes) none).exchange x.ga
/-- Such a write for an operation.  Where it meets a busy range or fails a race check it is not made, and that exception is reported
(DESIGN CHOICE, log entry 82). -/
def sideWrite (s : State) (a : Async) (va : Nat) (bytes : List Byte) : State := sideWriteBy true s a va bytes
/-- The same in the swizzled view of the context's own scratchpad (R86). -/
def ownSideWrite (s : State) (a : Async) (va : Nat) (bytes : List Byte) : State :=
  let pairs := ((scratchGas true (s.zmapOf a) a.core bytes.length va).getD []).zip bytes
  let s' := s.store pairs none
  match partLines s pairs with
  | [] => s'
  | l :: _ => s'.report a (poisonCause l va false false 15)

/-- MONARM_READ_RETURN (R92, R185). -/
def execMonarmReadReturn (id : Nat) (s : State) : Out :=
  onOp s id fun a => match a.kind with
    | .monRead mon va =>
      let m := (s.ctx a.core a.ctx).mons.get Monitor.start mon
      if !s.holder a || m.pendId != some a.id then some (s.dropOp a.id)
      else match reach s a .read va with
        | .wait => none
        | .bad q => some (failOp (noteMiss s a .read va q) a (xfailCause q va))
        | .gone => some (failOp s a (goneCause va))
        | .ok x =>
          match endpoint s a x va false false with
          | .error q => some (failOp s a q)
          | .ok s =>
            let s := (counted s a va x).exchange x.ga
            if s.poisoned (x.ga / 64) then some (consumeFar s a (x.ga / 64) va (x.cls == 5) none)
            else
              let got : Monitor := ⟨true, x.ga, some (readNat s.mem 8 x.ga),
                (s.locKnow.find (x.ga / 8 * 8)).filter (fun r => !r.atom), none⟩
              some ((s.modCtx a.core a.ctx fun k => { k with mons := k.mons.set mon got }).dropOp a.id)
    | _ => none

/-! ### Barrier arrivals (R89, R150) -/

/-- The knowledge of a release on another module, of which the detector learns nothing (R102). -/
def Rel.far : Rel := ⟨0, 5, [], false, []⟩
/-- A launch group's task here has ended, and no other has come: what still arrives for it is discarded (R156). -/
def groupOver (s : State) (p lgroup : Nat) : Bool := (groupTask s p lgroup).isNone && (s.part p).ended.contains lgroup
/-- An arrival for another module goes out; one that has come in waits for its launch group's task and then goes to its cores. -/
def moveSignal (s : State) (a : Async) (peer lgroup bar phase : Nat) : Option State :=
  if peer = 0 then
    match groupTask s a.part lgroup with
    | some t => some (s.setOp { a with kind := .arrive bar phase (t.parts.map (·.core)).eraseDups Rel.far none })
    | none => if groupOver s a.part lgroup then some (s.dropOp a.id) else none
  else if a.unacked || !peerTurn s a peer then none
  else match (s.part a.part).cfg.dest 1 peer with
    | none => some (failOp s a (goneCause 0))
    | some d =>
      if s.fabric.unreach.contains d then some (failOp s a (goneCause 0))
      else if (livePort s d).isNone then none
      else some (sendOut s a { ga := farBase d, cls := 6 })
/-- BARRIER_ARRIVAL: to the first core of the target set that still waits for it. -/
def execBarrierArrival (id : Nat) (s : State) : Out :=
  onOp s id fun a => match a.kind with
    | .arrive bar phase (d :: rest) r st =>
      if !arrivalTurn s a d then none
      else
        let s := deliver s d bar phase r
        if rest.isEmpty && st.isNone then some (s.dropOp a.id) else some (s.setOp { a with kind := .arrive bar phase rest r st })
    | .signal peer lgroup bar phase => moveSignal s a peer lgroup bar phase
    | _ => none

/-! ### Copies (R26, R172, R173) -/

/-- Why the engine cannot read a chunk. -/
inductive Miss where
  | wait
  | xl (f : XFail) (va : Nat) (write : Bool)
  | cause (q : Cause)
  | poison (line va : Nat) (shelf : Bool)
  deriving DecidableEq, Repr

/-- Bytes of one chunk of a source; `first` of its granule, it counts in a page of access mode 3 (R285), and asks for the granule (R311). -/
def readChunk (s : State) (a : Async) (va n : Nat) (first : Bool) : Except Miss (State × List Byte) :=
  if a.core < 512 ∧ inScratch va n then
    let gas := (scratchGas true (s.zmapOf a) a.core n va).getD []
    match gas.find? (fun ga => s.poisoned (ga / 64)) with
    | some ga => .error (.poison (ga / 64) va false)
    | none => .ok (s, gather s.mem gas)
  else match reach s a .read va with
    | .wait => .error .wait
    | .bad f => .error (.xl f va false)
    | .gone => .error (.cause (goneCause va))
    | .ok x =>
      match endpoint s a x va false false with
      | .error q => .error (.cause q)
      | .ok s =>
        if s.poisoned (x.ga / 64) then .error (.poison (x.ga / 64) va (x.cls == 5))
        else .ok (if first then (counted s a va x).exchange x.ga else s, readBytes s.mem n x.ga)
/-- A chunk's bytes: those held since the issue, or its source's. -/
def elemBytes (s : State) (a : Async) (e : Elem) : Except Miss (State × List Byte) :=
  match e.src with
  | none => .ok (s, e.data)
  | some va => readChunk s a va e.len e.first
/-- Chunks with their bytes, in element order. -/
def readGroup (a : Async) : State → List Elem → Except Miss (State × List (Nat × List Byte))
  | s, [] => .ok (s, [])
  | s, e :: rest =>
    match elemBytes s a e with
    | .error m => .error m
    | .ok (s, b) =>
      match readGroup a s rest with
      | .error m => .error m
      | .ok (s, l) => .ok (s, (e.dst, b) :: l)
/-- Writes of a copy outside the issuing core's scratchpad, a granule at a time (R83). -/
def writeGroup (s : State) (a : Async) (lead : Bool) (bytes : List (Nat × Byte)) : Except Miss State :=
  let va := (bytes.headD (0, 0)).1 / 64 * 64
  match reach s a .write va with
  | .wait => .error .wait
  | .bad f => .error (.xl f va true)
  | .gone => .error (.cause (goneCause va))
  | .ok x =>
    match endpoint s a x va true false with
    | .error q => .error (.cause q)
    | .ok s =>
      let pairs := bytes.map fun b => (x.ga + (b.1 - va), b.2)
      match partLines s pairs with
      | l :: _ => .error (.poison l va (x.cls == 5))
      | [] => .ok ((writeAt (if lead then counted s a va x else s) x pairs none).exchange x.ga)
/-- The writes of chunks, each in one granule, in order. -/
def writeChunks (a : Async) : State → List (Bool × List (Nat × Byte)) → Except Miss State
  | s, [] => .ok s
  | s, g :: rest =>
    match writeGroup s a g.1 g.2 with
    | .error m => .error m
    | .ok s => writeChunks a s rest
/-- A page of the slow path holds an address. -/
def Slow.covers (w : Slow) (va : Nat) : Bool := w.va / 2 ^ pageBits w.size == va / 2 ^ pageBits w.size
/-- A miss of a copy, multicast or collective (R173, R193, R281, R299): table poison, a lost switch and an unreachable peer are
deferred causes; any other failed translation goes to the slow path, where a second failure of one page declines with cause `code`;
poison follows R326.  A peer's answer that refuses, or is poison, is a response (R311). -/
def missCopy (s : State) (a : Async) (slow : Slow) (m : Miss) (code : Nat) (set : Slow → OpK) : Option State :=
  match m with
  | .wait => none
  | .cause q => some (failOp s a q)
  | .poison line va shelf => some (consumeFar (s.exchange (64 * line)) a line va shelf (some code))
  | .xl f va write =>
    let s := turnedAway s a (if write then .write else .read) va
    match f with
    | .poison .. => some (failOp (noteFail s a.core f) a (xfailCause f va))
    | .lost .. => some (failOp s a (xfailCause f va))
    | _ =>
      if slow.stage = 3 ∧ slow.covers va = true then some (failOp s a { code := code, addr := va })
      else some (s.setOp { a with kind := set ⟨1, va, write.toNat + xfailInfo f, 0, failSize s a.part a.core va⟩ })
/-- Copies of one context start in issue order (R172). -/
def copyTurn (s : State) (a : Async) : Bool :=
  !((s.mine a.core a.ctx).any fun b => b.task == a.task && decide (b.ord < a.ord) && (match b.kind with
    | .copy _ _ _ _ started => !started
    | .mcast _ _ _ _ data _ _ => data.isNone
    | _ => false))
/-- A copy still has a source granule that is a destination of its own: then its elements move one by one, in order (R171). -/
def crossing (s : State) (a : Async) (elems : List Elem) : Bool :=
  let dsts := elems.map fun e => anyGa s a e.dst
  elems.any fun e => e.src.any fun v => dsts.contains (anyGa s a v)
/-- The next chunks of a copy, those of one destination granule by whatever address, and the rest. -/
def nextChunks (same : Elem → Elem → Bool) : List Elem → List Elem × List Elem
  | [] => ([], [])
  | e :: rest => ((e :: rest).filter (same e), rest.filter fun d => !same e d)
/-- Two chunks go to one granule (R83, R171). -/
def sameDst (s : State) (a : Async) (sched : Bool) (e d : Elem) : Bool :=
  d.dst / 64 == e.dst / 64 || (!sched && anyGa s a d.dst == anyGa s a e.dst)
/-- A chunk of a source granule that other chunks have read takes its bytes with them: a granule is read once (R83, R100). -/
def fixChunk (s : State) (a : Async) (read : List Elem) (e : Elem) : Elem :=
  let hit := e.src.any fun v => read.any fun d => d.src.any fun w => w / 64 == v / 64 || anyGa s a w == anyGa s a v
  if !hit then e
  else match elemBytes s a e with
    | .ok (_, b) => { e with src := none, data := b }
    | .error _ => e
/-- The claim of a scheduled transfer has no room for `n` more bytes beside those that wait to be written (R29). -/
def skidFull (s : State) (a : Async) (n : Nat) : Bool :=
  match (s.ctx a.core a.ctx).regs.xfers.find? fun y => y.id == a.id with
  | some y =>
    let held := ((y.grans.filter fun g => g.left == 0 && !g.written).map (·.cover.length)).sum
    s.holder a && decide (held ≠ 0 ∧ held + n > y.claim)
  | none => false
/-- A copy's chunks, those of one element together. -/
def byElement : List Elem → List (List Elem)
  | [] => []
  | e :: rest =>
    match byElement rest with
    | (d :: g) :: gs => if d.cont then (e :: d :: g) :: gs else [e] :: (d :: g) :: gs
    | gs => [e] :: gs
/-- Elements one after the other, each read and then written: the states after them, up to the first that cannot go. -/
def moveEach (a : Async) : State → List (List Elem) → List State × Option Miss
  | _, [] => ([], none)
  | s, g :: rest =>
    match readGroup a s g with
    | .error m => ([], some m)
    | .ok (s, l) =>
      match writeChunks a s ((g.zip l).map fun p => (p.1.lead, cells p.2.1 p.2.2)) with
      | .error m => ([], some m)
      | .ok s => let r := moveEach a s rest; (s :: r.1, r.2)
/-- The longest prefix of at most `n` elements that shares no destination granule with the rest. -/
def cleanPrefix (key : Elem → Nat) (groups : List (List Elem)) : Nat → Nat
  | 0 => 0
  | n + 1 =>
    let after := (groups.drop (n + 1)).flatten.map key
    if (groups.take (n + 1)).flatten.any fun e => after.contains (key e) then cleanPrefix key groups n else n + 1
/-- A copy whose elements depend on one another moves as a whole, one element after the other (R171): no granule is written in part
(R83).  Where an element cannot go, those before it stand whose granules are complete. -/
def moveCross (s : State) (a : Async) (elems : List Elem) (cw : CWord) (slow : Slow) : Option State :=
  let groups := byElement elems
  let left := fun (n : Nat) => (groups.drop n).flatten
  let set := fun (s : State) (n : Nat) => s.setOp { a with kind := .copy (left n) false cw slow true }
  match moveEach a s groups with
  | (l, none) => some (set (l.getLast?.getD s) groups.length)
  | (_, some .wait) => none
  | (l, some m) =>
    let n := cleanPrefix (fun e => anyGa s a e.dst) groups l.length
    missCopy (set (if n = 0 then s else l.getD (n - 1) s) n) a slow m 0x32 fun w => .copy (left n) false cw w true
/-- An element's destination does not translate: where it leads, and whether the elements after it go to the same granules, the slow path
must say first. -/
def noWay (s : State) (a : Async) (e : Elem) : Option XFail :=
  match xlateP s a.part a.core a.level .write e.dst with
  | .error f => some f
  | .ok _ => none
/-- The first element that leads nowhere yet and stands before one that would move with the head of the copy: it comes first, so that a
later element overwrites an earlier one whatever the page is mapped to (R171, R173). -/
def inTheWay (s : State) (a : Async) (elems : List Elem) : Option (Elem × XFail) :=
  match elems with
  | [] => none
  | e :: _ =>
    match elems.dropWhile fun d => (noWay s a d).isNone with
    | [] => none
    | u :: rest => if (noWay s a e).isNone && rest.any (sameDst s a false e) then (noWay s a u).map fun f => (u, f) else none
/-- The next chunks of a copy are read and, in element order, written or handed to the transfer. -/
def moveCopy (s : State) (a : Async) (elems : List Elem) (sched : Bool) (cw : CWord) (slow : Slow) : Option State :=
  if !sched && crossing s a elems then moveCross s a elems cw slow else
  match (if sched then none else inTheWay s a elems) with
  | some (u, f) => missCopy s a slow (.xl f u.dst true) 0x32 fun w => .copy elems sched cw w true
  | none =>
  let (now, rest) := nextChunks (sameDst s a sched) elems
  if sched && skidFull s a (now.map (·.len)).sum then none
  else match readGroup a s now with
  | .error m => missCopy s a slow m 0x32 fun w => .copy elems sched cw w true
  | .ok (s', l) =>
    let rest := rest.map (fixChunk s' a now)
    let set := fun (s : State) => some (s.setOp { a with kind := .copy rest sched cw slow true })
    if sched then
      let zm := s.zmapOf a
      set (xferData s' a (l.flatMap fun p => ((scratchGas true zm a.core p.2.length p.1).getD []).zip p.2))
    else
      let parts := (now.zip l).map fun p => (p.1.lead, cells p.2.1 p.2.2)
      let one := (now.all fun e => e.dst / 64 == (now.headD ⟨0, none, 0, [], false, false, false⟩).dst / 64)
      let parts := if one then [(parts.any (·.1), parts.flatMap (·.2))] else parts
      match writeChunks a s' parts with
      | .error m => missCopy s a slow m 0x32 fun w => .copy elems sched cw w true
      | .ok s'' => set s''
/-- A multicast fetches its tile once (R175). -/
def readTile (a : Async) : State → Nat → Nat → Except Miss (State × List Byte)
  | s, _, 0 => .ok (s, [])
  | s, va, n + 1 =>
    match readChunk s a va 64 true with
    | .error m => .error m
    | .ok (s, b) =>
      match readTile a s (va + 64) n with
      | .error m => .error m
      | .ok (s, rest) => .ok (s, b ++ rest)
/-- TRANSFER_DATA_ARRIVAL. -/
def execTransferDataArrival (id : Nat) (s : State) : Out :=
  onOp s id fun a => match a.kind with
    | .copy elems sched cw slow started =>
      if elems.isEmpty || !slow.free || !(started || copyTurn s a) then none else moveCopy s a elems sched cw slow
    | .mcast src dst n left none cw slow =>
      if !slow.free || !copyTurn s a then none
      else match readTile a s src (n / 64) with
        | .error m => missCopy s a slow m 0x32 fun w => .mcast src dst n left none cw w
        | .ok (s, b) => some (s.setOp { a with kind := .mcast src dst n left (some b) cw slow })
    | _ => none
/-- COPY_COMPLETE (R168): every destination write has performed; a copy with none waits for the copies before it to start. -/
def execCopyComplete (id : Nat) (s : State) : Out :=
  onOp s id fun a => match a.kind with
    | .copy [] _ cw _ started => if (started || copyTurn s a) && xferDone s a then some (finish s a cw) else none
    | _ => none
/-- Bytes of a multicast reach a receiver: of one issued inside the issuer's own open segment they are logged first, and held with the
segment-overflow trap reported where the log is full (R49, R175); of one issued before the entry no rewind undoes them, for none writes
them again (R51). -/
def mcastStore (s : State) (a : Async) (core : Nat) (bytes : List (Nat × Byte)) : State × Bool :=
  match ownSegment s a core with
  | none => (s.store bytes none, true)
  | some g =>
    let new := (unitsOf bytes).filter fun u => !g.units.contains (0, u)
    if g.units.length + new.length > 1024 then
      (if (s.ctx a.core a.ctx).deferred.any (fun r => r.cause.code == 0x10) then s
        else defer s a.core a.ctx { code := 0x10, slot := a.at_.slot } a.at_, false)
    else (ownWrite s a.core a.ctx bytes none a.at_, true)
/-- MCAST_DELIVERY (R30, R175): one receiving core's copy of the tile, and its arrival. -/
def execMcastDelivery (id core : Nat) (s : State) : Out :=
  onOp s id fun a => match a.kind with
    | .mcast src dst n left (some b) cw slow =>
      if !left.contains core then none
      else
        let w := mcastStore s a core (((scratchGas true (s.zmapOf a) core n dst).getD []).zip b)
        let s := w.1
        if !w.2 then some s
        else
          let rest := left.filter (· != core)
          let id := s.nextId
          let done := match cw.ba, cw.ar with
            | true, some r => (s.post { a with after := cw.wait, kind := .arrive cw.bar cw.phase [core] r none }, [id])
            | _, _ => (s, [])
          let a' := { a with after := a.after ++ done.2, kind := .mcast src dst n rest (some b) cw slow }
          if !rest.isEmpty then some (done.1.setOp a')
          else match cw.st, cw.sr with
            | true, some r => some (done.1.setOp { a' with
                after := a'.after ++ cw.wait, kind := .arrive cw.bar cw.phase [] r (some (cw.saddr, cw.val, r)) })
            | _, _ => some (done.1.dropOp a.id)
    | _ => none

/-! ### The Kloty slow path (R173, R286) -/

/-- The ring entry of a page request. -/
def requestBytes (a : Async) (slow : Slow) : List Byte :=
  let n := 2 ^ pageBits slow.size
  ringBytes 2 slow.size a.core 0 (slow.va / n * n) slow.info
/-- The page request of an operation on the slow path: it names the page at which the translation failed, waits for space in the ring
(R286), is held where its place cannot be written (R281), and is dropped where the partition's control block is not in order, whereupon no
REPLY comes (R288). -/
def pageRequest (s : State) (a : Async) (slow : Slow) (set : Slow → OpK) : Option State :=
  if slow.stage ≠ 1 then none
  else if !(s.part a.part).tcbOk then some ((ringDrop s a.part).setOp { a with kind := set { slow with stage := 4 } })
  else
    let s := ringFlush s a.part
    let q := s.part a.part
    let entry := q.ringBase + 32 * ((tcbWord s a.part 0x18 + q.ringHeld.length) % 2 ^ q.ringLen)
    if tcbPaused s a.part || !ringRoom s a.part then none
    else (ringPostOrHold s a.part (requestBytes a slow)).map fun s' =>
      s'.setOp { a with kind := set { slow with stage := 2, reply := entry + 0x10 } }
/-- SLOW_PATH_HANDOFF: the request is posted, or waits for space in the ring. -/
def execSlowPathHandoff (id : Nat) (s : State) : Out :=
  onOp s id fun a => match a.kind with
    | .copy e sc cw slow st => pageRequest s a slow fun w => .copy e sc cw w st
    | .mcast x y n l d cw slow => pageRequest s a slow fun w => .mcast x y n l d cw w
    | .coll d cw slow own => pageRequest s a slow fun w => .coll d cw w own
    | _ => none
/-- What REPLY says, once the request stands in the ring: 1 walks again, 2 aborts with the operation's cause, anything else waits; a ring
out of reach ends the operation (R299, R313). -/
def readReply (s : State) (a : Async) (slow : Slow) (code : Nat) (set : Slow → OpK) : Option State :=
  let c := (s.part a.part).cfg.control
  if slow.stage ≠ 2 || (s.part a.part).ringHeld.contains (requestBytes a slow) || waitsIn s a.part c slow.reply 8 then none
  else match lostCause s c 1 .read slow.reply with
  | some q => some (failOp s a q)
  | none => match readVa a s c 1 slow.reply 8 with
    | (s', some 1) => some (s'.setOp { a with kind := set { slow with stage := 3 } })
    | (s', some 2) => some (failOp s' a { code := code, addr := slow.va })
    | (_, some _) => none
    | (s', none) => if s'.walkPoison = s.walkPoison then none else some s'
/-- PAGE_REQUEST_REPLY. -/
def execPageRequestReply (id : Nat) (s : State) : Out :=
  onOp s id fun a => match a.kind with
    | .copy e sc cw slow st => readReply s a slow 0x32 fun w => .copy e sc cw w st
    | .mcast x y n l d cw slow => readReply s a slow 0x32 fun w => .mcast x y n l d cw w
    | .coll d cw slow own => readReply s a slow 0x31 fun w => .coll d cw w own
    | _ => none

/-! ### Channels (R44, R271) -/

/-- Where a part runs: core and context, with its state (R307); none of an unknown part. -/
def partPlace (s : State) (p seq rank : Nat) : Option TaskPart :=
  match s.tasks.find? (fun t => t.part == p && t.seq == seq) with
  | some t => t.parts[rank]?
  | none => none
/-- Whether a beat has come from another module; its binding then names the launch group in place of the sequence number. -/
def Async.fromFar (a : Async) : Bool := decide (a.core ≥ 2 ^ 20)
/-- The part that a beat goes to. -/
def beatPlace (s : State) (a : Async) (bind : SendBind) : Option TaskPart :=
  if a.fromFar then (groupTask s a.part bind.group).bind fun t => t.parts[bind.rank]? else partPlace s a.part bind.group bind.rank
/-- A beat reaches the context that holds its part; it is refused while the part's image is out, and dropped with its credit
returned once the part has ended (R156, R271); one from another module waits while its launch group has no task here yet (R46). -/
def deliverBeat (s : State) (a : Async) (bind : SendBind) (b : Beat) : Option State :=
  match beatPlace s a bind with
  | none =>
    if a.fromFar && (groupTask s a.part bind.group).isNone && !groupOver s a.part bind.group then none else some (returnCreditsOf a.part (s.dropOp a.id) a.core a.ctx [b])
  | some t =>
    match t.state with
    | 0 => none
    | 1 =>
      if (s.ctx t.core t.ctx).busy then some (s.setOp { a with kind := .beat bind b true })
      else some ((s.modCtx t.core t.ctx fun k => { k with queues := k.queues.set bind.dch (k.queues.get [] bind.dch ++ [b]) }).dropOp a.id)
    | 2 => some (s.setOp { a with kind := .beat bind b true })
    | _ => some (returnCreditsOf a.part (s.dropOp a.id) a.core a.ctx [b])
/-- BEAT_ARRIVAL. -/
def execBeatArrival (id : Nat) (s : State) : Out :=
  onOp s id fun a => match a.kind with
    | .beat bind b false =>
      if bind.peer = 0 then deliverBeat s a bind b
      else match (s.part a.part).cfg.dest 1 bind.peer with
        | none => some (failOp s a (goneCause 0))
        | some d =>
          if s.fabric.unreach.contains d then some (failOp s a (goneCause 0))
          else if (livePort s d).isNone || a.unacked then none
          else some (sendOut s a { ga := farBase d, cls := 6 })
    | _ => none
/-- BEAT_REOFFER: the receiving core has reported the part loaded. -/
def execBeatReoffer (id : Nat) (s : State) : Out :=
  onOp s id fun a => match a.kind with
    | .beat bind b true =>
      let away := match beatPlace s a bind with
        | some t => t.state == 2 || (t.state == 1 && (s.ctx t.core t.ctx).busy)
        | none => false
      if away then none
      else deliverBeat s a bind b
    | _ => none
/-- CREDIT_RETURN: to the sending context while it still holds the sending part, or out over the fabric to its module. -/
def execCreditReturn (id : Nat) (s : State) : Out :=
  onOp s id fun a => match a.kind with
    | .credit c x ch n task =>
      if c ≥ 2 ^ 20 then
        if s.fabric.unreach.contains (c - 2 ^ 20) then some (s.dropOp a.id)
        else if (livePort s (c - 2 ^ 20)).isNone then none
        else some ((s.sendOn (c - 2 ^ 20)).dropOp a.id)
      else if s.tasks.any (fun t => t.id == task && t.parts.any fun p => p.core == c && p.ctx == x && p.state == 2) then none
      else if (s.ctx c x).holds && (s.ctx c x).info.task == task then
        some ((s.modCtx c x fun k => { k with outBeats := k.outBeats.put 0 ch (k.outBeats.get 0 ch - n) }).dropOp a.id)
      else some (s.dropOp a.id)
    | _ => none

/-! ### Atomics at their endpoint (R98, R99, R187 to R189) -/

/-- ATOMIC_PERFORM. -/
def execAtomicPerform (id : Nat) (s : State) : Out :=
  onOp s id fun a => match a.kind with
    | .atom .. => a.posted.bind (postedAccess s a)
    | _ => none

/-! ### Shelf requests (R190, R296, R297) -/

/-- Shelf switches a request reaches, lowest peer number first: they serve shelf memory, and mirroring where asked. -/
def shelfSwitches (s : State) (p : Nat) (mir : Bool) : List Nat :=
  ((s.part p).cfg.peers.filter fun e => e.2.1 == 2 && !s.fabric.unreach.contains e.2.2 &&
    (match livePort s e.2.2 with
      | some q => bit (portFw (s.fabric.ports.get Port.reset q) 1) 0 && (!mir || bit (portFw (s.fabric.ports.get Port.reset q) 1) 8)
      | none => false)).map (·.1)
/-- The lowest 2 MiB-aligned base free for a size, by steps over the allocations that are in the way. -/
def shelfPlaceAt (allocs : List Alloc) (size : Nat) : Nat → Nat → Option Nat
  | 0, _ => none
  | n + 1, base =>
    if base + size > shelfBase + 2 ^ 40 then none
    else match allocs.find? (fun a => decide (base < a.base + a.size ∧ a.base < base + size)) with
      | none => some base
      | some a => shelfPlaceAt allocs size n (a.base + a.size)
/-- A request to a shelf switch and its response (R311). -/
def askSwitch (p : Nat) (s : State) (peer : Nat) : State :=
  match (s.part p).cfg.dest 2 peer with
  | some d => (s.sendOn d).heard d
  | none => s
/-- Status, address and state after a `SHALLOC` (R297). -/
def shalloc (s : State) (p size : Nat) (mir : Bool) : State × Nat × Nat :=
  let q := s.part p
  let sw := shelfSwitches s p mir
  let need := if mir then 2 else 1
  if size = 0 ∨ size % 2 ^ 21 ≠ 0 then (s, 4, 0)
  else if q.shelf.length ≥ 1024 then (s, 1, 0)
  else if (shelfSwitches s p false).isEmpty then (s, 2, 0)
  else if sw.length < need then (s, 3, 0)
  else match shelfPlaceAt q.shelf size (q.shelf.length + 1) shelfBase with
    | none => (s, 4, 0)
    | some base =>
      let g1 := Config.shelfGrants s.tick
      let g2 := Config.shelfGrants (s.tick + 1)
      let place := Config.shelfPlace s.tick
      let s := (sw.take need).foldl (askSwitch p) { s with tick := s.tick + 2 }
      if mir && !(g1 && g2) then (s, 3, 0)
      else if !g1 then (s, 1, 0)
      else
        let a : Alloc := ⟨base, size, sw.headD 0, if mir then sw[1]? else none, place, q.allocs % 2 ^ 32, 0⟩
        (s.modPart p fun q => { q with shelf := q.shelf ++ [a], allocs := q.allocs + 1 }, 0, base)
/-- The result dword of a shelf request reaches its granule. -/
def shelfResult (s : State) (a : Async) (ret : List Nat) (status addr : Nat) : State :=
  (xferData s a (ret.zip (toBytes 8 (status * 2 ^ 60 + addr)))).dropOp a.id
/-- SHALLOC_REPLY. -/
def execShallocReply (id : Nat) (s : State) : Out :=
  onOp s id fun a => match a.kind with
    | .shalloc size mir ret =>
      let r := shalloc s a.part size mir
      some (shelfResult r.1 a ret r.2.1 r.2.2)
    | _ => none
/-- SHFREE_REPLY. -/
def execShfreeReply (id : Nat) (s : State) : Out :=
  onOp s id fun a => match a.kind with
    | .shfree va ret =>
      match (s.part a.part).shelf.find? (fun e => e.base == va) with
      | none => some (shelfResult s a ret 5 0)
      | some e =>
        let s := dropTlb s (fun _ => true) fun t => t.part == a.part && decide (e.base ≤ t.va ∧ t.va < e.base + e.size)
        let s := (if e.state = 2 then [] else e.peer1 :: e.peer2.toList).foldl (askSwitch a.part) s
        let s := s.modPart a.part fun q => { q with shelf := q.shelf.filter fun f => f.base != va }
        some (shelfResult s a ret (if e.state = 2 then 6 else 0) 0)
    | _ => none

end Sys2Proof.Machine
end

