-- ==== Sys2Proof/Machine/VecInt.lean ====
section
/-!
DEFINITION. Vector slots, integer part (R196 to R202, R210 to R213, R215 to R219): arithmetic, logic, compares, moves,
broadcasts, inserts, shaped reads, streams and masks.
-/

namespace Sys2Proof.Machine

open Sys2Proof

/-- Tags of the sources in assembly order (R53). -/
def checkTags (i : Iss) (e : Option Nat) : Nat → List (Nat × Nat) → Except Stop Unit
  | _, [] => .ok ()
  | pos, (r, want) :: rest =>
    match checkTag i pos (vsrc i e pos r) want with
    | .error f => .error f
    | .ok _ => checkTags i e (pos + 1) rest
/-- Element `j` of the source in position `pos`. -/
def srcElem (i : Iss) (e : Option Nat) (rs : List (Nat × Nat)) (pos j : Nat) : Nat :=
  match rs[pos]? with
  | some (r, tag) => (vsrc i e pos r).elem tag j
  | none => 0

/-- Layout E (R199): sources with their tags, a masked element-wise result of tag `rtag`. -/
def opE (cls lat : Nat) (e : Option Nat) (vd mk rtag : Nat) (u : Bool) (rs : List (Nat × Nat))
    (f : RMode → Nat → Nat → Nat → Nat × Nat) : Op :=
  { src := srcs e (rs.map (·.1))
    cls := fun _ _ => cls
    run := fun i s => do
      checkTags i e 0 rs
      maskedOut i lat vd rtag mk u (fun j => f (rmOf i) (srcElem i e rs 0 j) (srcElem i e rs 1 j) (srcElem i e rs 2 j)) s }

/-! ### Arithmetic (R200) -/

/-- A two-source and a one-source integer instruction: latency 2, class 3, no flag. -/
def opI2 (f : Nat → Nat → Nat → Nat) (e : Option Nat) (vd va vb mk ft : Nat) (u : Bool) : Op :=
  opE 3 2 e vd mk ft u [(va, ft), (vb, ft)] fun _ a b _ => (f (tagWidth ft) a b % 2 ^ tagWidth ft, 0)
def opI1 (f : Nat → Nat → Nat) (e : Option Nat) (vd va mk ft : Nat) (u : Bool) : Op :=
  opE 3 2 e vd mk ft u [(va, ft)] fun _ a _ _ => (f (tagWidth ft) a % 2 ^ tagWidth ft, 0)

def subN (w a b : Nat) : Nat := (a + (2 ^ w - b % 2 ^ w)) % 2 ^ w
def mulhN (u : Bool) (w a b : Nat) : Nat := wrapI ((intOf u a w * intOf u b w) >>> w) w
def satN (u : Bool) (w : Nat) (z : Int) : Nat := wrapI (if u then satU z w else satS z w) w
def minN (u : Bool) (w a b : Nat) : Nat := if intOf u b w < intOf u a w then b else a
def maxN (u : Bool) (w a b : Nat) : Nat := if intOf u a w < intOf u b w then b else a
def absN (u : Bool) (w a : Nat) : Nat := if u then a else wrapI (sgn a w).natAbs w
def negN (w a : Nat) : Nat := subN w 0 a

def opVadd (e : Option Nat) (vd va vb mk ft : Nat) (u : Bool) : Op := opI2 (fun _ a b => a + b) e vd va vb mk ft u
def opVsub (e : Option Nat) (vd va vb mk ft : Nat) (u : Bool) : Op := opI2 subN e vd va vb mk ft u
def opVmul (e : Option Nat) (vd va vb mk ft : Nat) (u : Bool) : Op := opI2 (fun _ a b => a * b) e vd va vb mk ft u
def opVmulh (e : Option Nat) (vd va vb mk ft : Nat) (u : Bool) : Op := opI2 (mulhN u) e vd va vb mk ft u
def opVsadd (e : Option Nat) (vd va vb mk ft : Nat) (u : Bool) : Op :=
  opI2 (fun w a b => satN u w (intOf u a w + intOf u b w)) e vd va vb mk ft u
def opVssub (e : Option Nat) (vd va vb mk ft : Nat) (u : Bool) : Op :=
  opI2 (fun w a b => satN u w (intOf u a w - intOf u b w)) e vd va vb mk ft u
def opVmin (e : Option Nat) (vd va vb mk ft : Nat) (u : Bool) : Op := opI2 (minN u) e vd va vb mk ft u
def opVmax (e : Option Nat) (vd va vb mk ft : Nat) (u : Bool) : Op := opI2 (maxN u) e vd va vb mk ft u
def opVabs (e : Option Nat) (vd va mk ft : Nat) (u : Bool) : Op := opI1 (absN u) e vd va mk ft u
def opVneg (e : Option Nat) (vd va mk ft : Nat) (u : Bool) : Op := opI1 negN e vd va mk ft u
def opVshl (e : Option Nat) (vd va vb mk ft : Nat) (u : Bool) : Op := opI2 shlN e vd va vb mk ft u
def opVshr (e : Option Nat) (vd va vb mk ft : Nat) (u : Bool) : Op := opI2 shrN e vd va vb mk ft u
def opVsra (e : Option Nat) (vd va vb mk ft : Nat) (u : Bool) : Op := opI2 sraN e vd va vb mk ft u
def opVclz (e : Option Nat) (vd va mk ft : Nat) (u : Bool) : Op := opI1 clzN e vd va mk ft u
def opVpopc (e : Option Nat) (vd va mk ft : Nat) (u : Bool) : Op := opI1 popN e vd va mk ft u

/-! ### Logic (R201) -/

/-- Raw sources of any tag are accepted; FT 0 covers the whole register. -/
def opLogic (f : Nat → Nat → Nat) (e : Option Nat) (vd va vb mk ft : Nat) (u : Bool) : Op :=
  { src := srcs e [va, vb]
    cls := slotClass
    run := fun i s =>
      let a := vsrc i e 0 va
      let b := vsrc i e 1 vb
      if ft = 0 then .ok (i.emit 2 (.v vd ⟨BitVec.ofNat 2048 (f a.bits.toNat b.bits.toNat), 0⟩) s)
      else maskedOut i 2 vd ft mk u (fun j => (f (a.elem ft j) (b.elem ft j), 0)) s }
def opVand (e : Option Nat) (vd va vb mk ft : Nat) (u : Bool) : Op := opLogic (· &&& ·) e vd va vb mk ft u
def opVor (e : Option Nat) (vd va vb mk ft : Nat) (u : Bool) : Op := opLogic (· ||| ·) e vd va vb mk ft u
def opVxor (e : Option Nat) (vd va vb mk ft : Nat) (u : Bool) : Op := opLogic (· ^^^ ·) e vd va vb mk ft u
def opVandn (e : Option Nat) (vd va vb mk ft : Nat) (u : Bool) : Op := opLogic (andnN (tagWidth ft)) e vd va vb mk ft u

/-! ### Compares (R202) -/

/-- A mask from one bit an element; bits past the elements are 0. -/
def maskOf (n : Nat) (f : Nat → Bool) : Mask := BitVec.ofNat 256 (pack 1 ((List.range n).map fun j => (f j).toNat))
/-- The integer conditions. -/
def condI (cond : Nat) (a b : Int) : Bool :=
  match cond with
  | 0 => a == b | 1 => a != b | 2 => decide (a < b) | 3 => decide (a ≤ b) | 4 => decide (a > b) | _ => decide (a ≥ b)
def opVcmp (e : Option Nat) (md va vb cond ft : Nat) (u : Bool) : Op :=
  { src := srcs e [va, vb]
    cls := slotClass
    run := fun i s => do
      checkTags i e 0 [(va, ft), (vb, ft)]
      let a := vsrc i e 0 va
      let b := vsrc i e 1 vb
      let w := tagWidth ft
      .ok (i.emit 2 (.m md (maskOf (tagCount ft) fun j => condI cond (intOf u (a.elem ft j) w) (intOf u (b.elem ft j) w))) s) }

/-! ### Moves, broadcasts, inserts, tags (R210 to R213) -/

def opVsel (e : Option Nat) (vd va vb mk ft : Nat) (u : Bool) : Op :=
  { src := srcs e [va, vb]
    cls := slotClass
    run := fun i s => do
      checkTags i e 0 [(va, ft), (vb, ft)]
      wholeOut i 2 vd ft u (fun j => (if active (i.regs.rm mk) j then (vsrc i e 0 va).elem ft j else (vsrc i e 1 vb).elem ft j, 0)) s }
def opVmov (e : Option Nat) (vd va mk ft : Nat) (u : Bool) : Op :=
  { src := srcs e [va]
    cls := slotClass
    run := fun i s =>
      let a := vsrc i e 0 va
      if ft = 0 then
        (if a.tag = 0 ∨ a.tag ≥ 11 then .ok (i.emit 2 (.v vd a) s)
         else wholeOut i 2 vd a.tag u (fun j => (a.elem a.tag j, 0)) s)
      else do
        checkTag i 0 a ft
        maskedOut i 2 vd ft mk u (fun j => (a.elem ft j, 0)) s }
def opVbcast (vd gn mk ft : Nat) (u : Bool) : Op :=
  { cls := slotClass, run := fun i s => maskedOut i 2 vd ft mk u (fun _ => ((i.regs.rg gn).toNat % 2 ^ tagWidth ft, 0)) s }

/-- Rows and columns of a shaped instruction over `n` elements, or the shape fault (R197). -/
def rowsOf (i : Iss) : Nat := 2 ^ i.regs.vshape
def shaped (i : Iss) (n : Nat) : Except Stop (Nat × Nat) :=
  if rowsOf i > n then i.trap 0x23 else .ok (rowsOf i, n / rowsOf i)
/-- The row and column forms of VBCAST: the source element of each destination element (R211). -/
def opBcast (row : Bool) (e : Option Nat) (vd va idx ft : Nat) : Op :=
  { src := srcs e [va]
    cls := slotClass
    run := fun i s => do
      checkTags i e 0 [(va, ft)]
      let (nr, nc) ← shaped i (tagCount ft)
      if idx ≥ (if row then nr else nc) then i.trap 0x23
      else wholeOut i 2 vd ft false (fun j =>
        ((vsrc i e 0 va).elem ft (if row then idx * nc + j % nc else j / nc * nc + idx), 0)) s }
def opVbcastRow (e : Option Nat) (vd va idx ft : Nat) : Op := opBcast true e vd va idx ft
def opVbcastCol (e : Option Nat) (vd va idx ft : Nat) : Op := opBcast false e vd va idx ft
/-- VINS writes one element and checks only that one (R212, R221). -/
def opVins (vd gn idx ft : Nat) (u : Bool) : Op :=
  { cls := slotClass
    run := fun i s =>
      let old := i.regs.rv vd
      emitV i 2 vd ft u ((List.range (tagCount ft)).map fun j =>
        if j = idx then ((i.regs.rg gn).toNat % 2 ^ tagWidth ft, true) else (old.elem ft j, false)) s }
def opVext (e : Option Nat) (d va idx ft : Nat) (u : Bool) : Op :=
  { src := srcs e [va]
    cls := slotClass
    run := fun i s => do
      checkTags i e 0 [(va, ft)]
      let x := (vsrc i e 0 va).elem ft idx
      .ok (i.emit 2 (.g d (if intTag ft && !u then BitVec.ofInt 64 (sgn x (tagWidth ft)) else BitVec.ofNat 64 x)) s) }
def opVshape (rc : Nat) : Op := { cls := slotClass, run := fun i s => .ok (i.emit 1 (.vshape rc) s) }
/-- VTAG: the bits unchanged; what it sets is checked under its new tag (R213, R221). -/
def opVtag (e : Option Nat) (vd va tt : Nat) : Op :=
  { src := srcs e [va]
    cls := slotClass
    run := fun i s =>
      let a := vsrc i e 0 va
      if tt = 0 then .ok (i.emit 2 (.v vd ⟨a.bits, 0⟩) s) else wholeOut i 2 vd tt false (fun j => (a.elem tt j, 0)) s }

/-! ### Shaped reads (R215, R216) -/

/-- The integer tag of an element width. -/
def intTagOf (tag : Nat) : Nat := match tagWidth tag with | 8 => 1 | 16 => 2 | 32 => 3 | _ => 4
/-- VXRD (R215).  The tag expected for VA, and that U on a tag of no integers is judged between VA's tag and VI's, are choices (DESIGN CHOICE,
log entry 24). -/
def opVxrd (e : Option Nat) (vd va vi mk md : Nat) (u : Bool) : Op :=
  { src := srcs e [va, vi]
    cls := slotClass
    run := fun i s =>
      let a := vsrc i e 0 va
      let t := a.tag
      if t = 0 ∨ t ≥ 12 then tagFault i t 0 0
      else if u && !intTag t then i.trap 0x03
      else do
        checkTag i 1 (vsrc i e 1 vi) (intTagOf t)
        let n := tagCount t
        let (_, nc) ← shaped i n
        let m := i.regs.rm mk
        let ix := fun j => (vsrc i e 1 vi).elem t j
        let from_ := fun j => j / nc * nc + ix j
        let valid := fun j => active m j && decide (ix j < nc) && active m (from_ j)
        let s ← wholeOut i 3 vd t u (fun j => (if valid j then a.elem t (from_ j) else a.elem t j, 0)) s
        .ok (i.emit 3 (.m md (maskOf n valid)) s) }
def opVrot (e : Option Nat) (vd va k ft : Nat) (u : Bool) : Op :=
  { src := srcs e [va]
    cls := slotClass
    run := fun i s => do
      checkTags i e 0 [(va, ft)]
      let (_, nc) ← shaped i (tagCount ft)
      wholeOut i 2 vd ft u (fun j => ((vsrc i e 0 va).elem ft (j / nc * nc + (j % nc + k) % nc), 0)) s }

/-! ### Streams (R217, R218) -/

def setStream (i : Iss) (n : Nat) (q : Stream) (s : State) : State :=
  s.modRegs i.core i.ctx fun r => { r with streams := r.streams.set n q }
def opVspush (e : Option Nat) (sq va mk : Nat) : Op :=
  { src := srcs e [va]
    cls := slotClass
    run := fun i s =>
      let a := vsrc i e 0 va
      let q := i.regs.sq sq
      if !(a.tag = 3 ∨ a.tag = 10) then tagFault i a.tag (if q.items.isEmpty then 3 else q.tag) 0
      else if !q.items.isEmpty ∧ a.tag ≠ q.tag then tagFault i a.tag q.tag 0
      else
        let new := ((List.range 64).filter (active (i.regs.rm mk))).map (a.elem a.tag)
        if q.items.length + new.length > 256 then i.trap 0x24
        else .ok (setStream i sq ⟨q.items ++ new, a.tag⟩ s) }
def runPop (i : Iss) (sq vd md k : Nat) (s : State) : Except Stop State := do
  let q := i.regs.sq sq
  let xs := q.items.take k
  let s ← wholeOut i 3 vd q.tag false (fun j => (xs.getD j 0, 0)) (setStream i sq { q with items := q.items.drop k } s)
  .ok (i.emit 3 (.m md (maskOf k fun _ => true)) s)
def opVspop (sq vd md : Nat) : Op :=
  { cls := slotClass, run := fun i s => runPop i sq vd md (if (i.regs.sq sq).items.length ≥ 64 then 64 else 0) s }
def opVspopEnd (sq vd md : Nat) : Op :=
  { cls := slotClass, run := fun i s => runPop i sq vd md (Nat.min 64 (i.regs.sq sq).items.length) s }
/-- VSBAL (R218): from the tail of the longer queue to the tail of the shorter; two empty queues stay as they are
(DEDUCED, log entry 21).  Of two of one count SQB is taken for the shorter; that, and what the format-tag fault reports, is a choice (DESIGN
CHOICE, log entry 24). -/
def opVsbal (sqa sqb : Nat) : Op :=
  { cls := slotClass
    run := fun i s =>
      let a := i.regs.sq sqa
      let b := i.regs.sq sqb
      let (long, short, nl, ns) := if a.items.length ≥ b.items.length then (a, b, sqa, sqb) else (b, a, sqb, sqa)
      if !short.items.isEmpty ∧ short.tag ≠ long.tag then tagFault i short.tag long.tag 0
      else
        let n := Nat.min 64 ((long.items.length - short.items.length) / 2)
        let keep := long.items.length - n
        let short' : Stream := ⟨short.items ++ long.items.drop keep, if long.items.isEmpty then short.tag else long.tag⟩
        .ok (setStream i ns short' (setStream i nl { long with items := long.items.take keep } s)) }

/-! ### Masks (R219) -/

def opM2 (f : Mask → Mask → Mask) (md ma mb : Nat) : Op :=
  { cls := slotClass, run := fun i s => .ok (i.emit 2 (.m md (f (i.regs.rm ma) (i.regs.rm mb))) s) }
def opMand (md ma mb : Nat) : Op := opM2 (· &&& ·) md ma mb
def opMor (md ma mb : Nat) : Op := opM2 (· ||| ·) md ma mb
def opMxor (md ma mb : Nat) : Op := opM2 (· ^^^ ·) md ma mb
def opMnot (md ma : Nat) : Op := { cls := slotClass, run := fun i s => .ok (i.emit 2 (.m md (~~~ (i.regs.rm ma))) s) }
def opMpopc (d ma : Nat) : Op :=
  { cls := slotClass, run := fun i s => .ok (i.emit 2 (.g d (BitVec.ofNat 64 (popN 256 (i.regs.rm ma).toNat))) s) }
def opMfirst (d ma : Nat) : Op :=
  { cls := slotClass, run := fun i s => .ok (i.emit 2 (.g d (BitVec.ofNat 64 (firstN 256 0 (i.regs.rm ma).toNat))) s) }
def ones (n : Nat) : Mask := BitVec.ofNat 256 (2 ^ Nat.min n 256 - 1)
def opMset (md cnt : Nat) : Op := { cls := slotClass, run := fun i s => .ok (i.emit 2 (.m md (ones cnt)) s) }
def opMsetReg (md gn : Nat) : Op :=
  { cls := slotClass, run := fun i s => .ok (i.emit 2 (.m md (ones (i.regs.rg gn).toNat)) s) }

/-! ### Meanings -/

def execVadd (e : Option Nat) (vd va vb mk ft : Nat) (u : Bool) (s : State) : Out :=
  issueOne (.vadd e vd va vb mk ft u) (opVadd e vd va vb mk ft u) s
def execVsub (e : Option Nat) (vd va vb mk ft : Nat) (u : Bool) (s : State) : Out :=
  issueOne (.vsub e vd va vb mk ft u) (opVsub e vd va vb mk ft u) s
def execVmul (e : Option Nat) (vd va vb mk ft : Nat) (u : Bool) (s : State) : Out :=
  issueOne (.vmul e vd va vb mk ft u) (opVmul e vd va vb mk ft u) s
def execVmulh (e : Option Nat) (vd va vb mk ft : Nat) (u : Bool) (s : State) : Out :=
  issueOne (.vmulh e vd va vb mk ft u) (opVmulh e vd va vb mk ft u) s
def execVsadd (e : Option Nat) (vd va vb mk ft : Nat) (u : Bool) (s : State) : Out :=
  issueOne (.vsadd e vd va vb mk ft u) (opVsadd e vd va vb mk ft u) s
def execVssub (e : Option Nat) (vd va vb mk ft : Nat) (u : Bool) (s : State) : Out :=
  issueOne (.vssub e vd va vb mk ft u) (opVssub e vd va vb mk ft u) s
def execVmin (e : Option Nat) (vd va vb mk ft : Nat) (u : Bool) (s : State) : Out :=
  issueOne (.vmin e vd va vb mk ft u) (opVmin e vd va vb mk ft u) s
def execVmax (e : Option Nat) (vd va vb mk ft : Nat) (u : Bool) (s : State) : Out :=
  issueOne (.vmax e vd va vb mk ft u) (opVmax e vd va vb mk ft u) s
def execVabs (e : Option Nat) (vd va mk ft : Nat) (u : Bool) (s : State) : Out :=
  issueOne (.vabs e vd va mk ft u) (opVabs e vd va mk ft u) s
def execVneg (e : Option Nat) (vd va mk ft : Nat) (u : Bool) (s : State) : Out :=
  issueOne (.vneg e vd va mk ft u) (opVneg e vd va mk ft u) s
def execVand (e : Option Nat) (vd va vb mk ft : Nat) (u : Bool) (s : State) : Out :=
  issueOne (.vand e vd va vb mk ft u) (opVand e vd va vb mk ft u) s
def execVor (e : Option Nat) (vd va vb mk ft : Nat) (u : Bool) (s : State) : Out :=
  issueOne (.vor e vd va vb mk ft u) (opVor e vd va vb mk ft u) s
def execVxor (e : Option Nat) (vd va vb mk ft : Nat) (u : Bool) (s : State) : Out :=
  issueOne (.vxor e vd va vb mk ft u) (opVxor e vd va vb mk ft u) s
def execVandn (e : Option Nat) (vd va vb mk ft : Nat) (u : Bool) (s : State) : Out :=
  issueOne (.vandn e vd va vb mk ft u) (opVandn e vd va vb mk ft u) s
def execVshl (e : Option Nat) (vd va vb mk ft : Nat) (u : Bool) (s : State) : Out :=
  issueOne (.vshl e vd va vb mk ft u) (opVshl e vd va vb mk ft u) s
def execVshr (e : Option Nat) (vd va vb mk ft : Nat) (u : Bool) (s : State) : Out :=
  issueOne (.vshr e vd va vb mk ft u) (opVshr e vd va vb mk ft u) s
def execVsra (e : Option Nat) (vd va vb mk ft : Nat) (u : Bool) (s : State) : Out :=
  issueOne (.vsra e vd va vb mk ft u) (opVsra e vd va vb mk ft u) s
def execVclz (e : Option Nat) (vd va mk ft : Nat) (u : Bool) (s : State) : Out :=
  issueOne (.vclz e vd va mk ft u) (opVclz e vd va mk ft u) s
def execVpopc (e : Option Nat) (vd va mk ft : Nat) (u : Bool) (s : State) : Out :=
  issueOne (.vpopc e vd va mk ft u) (opVpopc e vd va mk ft u) s
def execVcmp (e : Option Nat) (md va vb cond ft : Nat) (u : Bool) (s : State) : Out :=
  issueOne (.vcmp e md va vb cond ft u) (opVcmp e md va vb cond ft u) s
def execVsel (e : Option Nat) (vd va vb mk ft : Nat) (u : Bool) (s : State) : Out :=
  issueOne (.vsel e vd va vb mk ft u) (opVsel e vd va vb mk ft u) s
def execVmov (e : Option Nat) (vd va mk ft : Nat) (u : Bool) (s : State) : Out :=
  issueOne (.vmov e vd va mk ft u) (opVmov e vd va mk ft u) s
def execVbcast (vd gn mk ft : Nat) (u : Bool) (s : State) : Out := issueOne (.vbcast vd gn mk ft u) (opVbcast vd gn mk ft u) s
def execVbcastRow (e : Option Nat) (vd va idx ft : Nat) (s : State) : Out :=
  issueOne (.vbcastRow e vd va idx ft) (opVbcastRow e vd va idx ft) s
def execVbcastCol (e : Option Nat) (vd va idx ft : Nat) (s : State) : Out :=
  issueOne (.vbcastCol e vd va idx ft) (opVbcastCol e vd va idx ft) s
def execVins (vd gn idx ft : Nat) (u : Bool) (s : State) : Out := issueOne (.vins vd gn idx ft u) (opVins vd gn idx ft u) s
def execVext (e : Option Nat) (d va idx ft : Nat) (u : Bool) (s : State) : Out :=
  issueOne (.vext e d va idx ft u) (opVext e d va idx ft u) s
def execVshape (rc : Nat) (s : State) : Out := issueOne (.vshape rc) (opVshape rc) s
def execVtag (e : Option Nat) (vd va tt : Nat) (s : State) : Out := issueOne (.vtag e vd va tt) (opVtag e vd va tt) s
def execVxrd (e : Option Nat) (vd va vi mk md : Nat) (u : Bool) (s : State) : Out :=
  issueOne (.vxrd e vd va vi mk md u) (opVxrd e vd va vi mk md u) s
def execVrot (e : Option Nat) (vd va k ft : Nat) (u : Bool) (s : State) : Out :=
  issueOne (.vrot e vd va k ft u) (opVrot e vd va k ft u) s
def execVspush (e : Option Nat) (sq va mk : Nat) (s : State) : Out := issueOne (.vspush e sq va mk) (opVspush e sq va mk) s
def execVspop (sq vd md : Nat) (s : State) : Out := issueOne (.vspop sq vd md) (opVspop sq vd md) s
def execVspopEnd (sq vd md : Nat) (s : State) : Out := issueOne (.vspopEnd sq vd md) (opVspopEnd sq vd md) s
def execVsbal (sqa sqb : Nat) (s : State) : Out := issueOne (.vsbal sqa sqb) (opVsbal sqa sqb) s
def execMand (md ma mb : Nat) (s : State) : Out := issueOne (.mand md ma mb) (opMand md ma mb) s
def execMor (md ma mb : Nat) (s : State) : Out := issueOne (.mor md ma mb) (opMor md ma mb) s
def execMxor (md ma mb : Nat) (s : State) : Out := issueOne (.mxor md ma mb) (opMxor md ma mb) s
def execMnot (md ma : Nat) (s : State) : Out := issueOne (.mnot md ma) (opMnot md ma) s
def execMpopc (d ma : Nat) (s : State) : Out := issueOne (.mpopc d ma) (opMpopc d ma) s
def execMfirst (d ma : Nat) (s : State) : Out := issueOne (.mfirst d ma) (opMfirst d ma) s
def execMset (md cnt : Nat) (s : State) : Out := issueOne (.mset md cnt) (opMset md cnt) s
def execMsetReg (md gn : Nat) (s : State) : Out := issueOne (.msetReg md gn) (opMsetReg md gn) s

end Sys2Proof.Machine
end

