-- ==== Sys2Proof/Machine/VecFp.lean ====
section
/-!
DEFINITION. Vector slots, floating-point part (R202 to R209, R214) and the special-function slot (R220).
-/

namespace Sys2Proof.Machine

open Sys2Proof

/-! ### Arithmetic (R203) -/

def opF2 (f : Nat → RMode → Nat → Nat → Nat × Nat) (e : Option Nat) (vd va vb mk ft : Nat) : Op :=
  opE 4 4 e vd mk ft false [(va, ft), (vb, ft)] fun m a b _ => f ft m a b
def opF3 (f : Nat → RMode → Nat → Nat → Nat → Nat × Nat) (e vd va vb mk ft : Nat) : Op :=
  opE 4 4 (some e) vd mk ft false [(va, ft), (vb, ft), (bits e 24 5, ft)] (f ft)
def opF1 (f : Nat → Nat → Nat) (e : Option Nat) (vd va mk ft : Nat) : Op :=
  opE 4 4 e vd mk ft false [(va, ft)] fun _ a _ _ =>
    if (decodeVal ft a).isNan then (canonNaN ft, if (decodeVal ft a).isSig then flagIV else 0) else (f ft a, 0)

def opVfadd (e : Option Nat) (vd va vb mk ft : Nat) : Op := opF2 fadd e vd va vb mk ft
def opVfsub (e : Option Nat) (vd va vb mk ft : Nat) : Op := opF2 fsub e vd va vb mk ft
def opVfmul (e : Option Nat) (vd va vb mk ft : Nat) : Op := opF2 fmul e vd va vb mk ft
def opVfma (e vd va vb mk ft : Nat) : Op := opF3 fma e vd va vb mk ft
def opVfms (e vd va vb mk ft : Nat) : Op := opF3 fms e vd va vb mk ft
def opVfnma (e vd va vb mk ft : Nat) : Op := opF3 fnma e vd va vb mk ft
def opVfmin (e : Option Nat) (vd va vb mk ft : Nat) : Op := opF2 (fun t _ a b => fminmax t false a b) e vd va vb mk ft
def opVfmax (e : Option Nat) (vd va vb mk ft : Nat) : Op := opF2 (fun t _ a b => fminmax t true a b) e vd va vb mk ft
/-- The sign bit of a code cleared or inverted. -/
def fabsN (ft a : Nat) : Nat := a % 2 ^ (tagWidth ft - 1)
def fnegN (ft a : Nat) : Nat := a ^^^ 2 ^ (tagWidth ft - 1)
def opVfabs (e : Option Nat) (vd va mk ft : Nat) : Op := opF1 fabsN e vd va mk ft
def opVfneg (e : Option Nat) (vd va mk ft : Nat) : Op := opF1 fnegN e vd va mk ft

/-! ### Compares and classes (R202, R204) -/

def opVfcmp (e : Option Nat) (md va vb cond ft : Nat) : Op :=
  { src := srcs e [va, vb]
    cls := fun _ _ => 4
    run := fun i s => do
      checkTags i e 0 [(va, ft), (vb, ft)]
      let r := fun j => fcmp ft cond ((vsrc i e 0 va).elem ft j) ((vsrc i e 1 vb).elem ft j)
      let s ← flagsOut i 4 ((List.range (tagCount ft)).map fun j => (r j).2) s
      .ok (i.emit 4 (.m md (maskOf (tagCount ft) fun j => (r j).1)) s) }
def opVfcls (e : Option Nat) (md va cls ft : Nat) : Op :=
  { src := srcs e [va]
    cls := fun _ _ => 4
    run := fun i s => do
      checkTags i e 0 [(va, ft)]
      .ok (i.emit 4 (.m md (maskOf (tagCount ft) fun j => bit cls (fclass ft ((vsrc i e 0 va).elem ft j)))) s) }

/-! ### Exponents (R205) -/

/-- The integer tag paired with a floating tag. -/
def pairedInt (ft : Nat) : Nat := if ft = 10 then 3 else 2
def opVfexp (e : Option Nat) (vd va mk ft : Nat) : Op :=
  opE 4 4 e vd mk (pairedInt ft) false [(va, ft)] fun _ a _ _ => fexpInt ft (tagWidth ft) a
def opVfscl (e : Option Nat) (vd va vb mk ft : Nat) : Op :=
  opE 4 4 e vd mk ft false [(va, ft), (vb, pairedInt ft)] fun m a b _ => fscl ft m a (sgn b (tagWidth ft))

/-! ### Conversions (R206, R207) -/

/-- One element converted: the code and its flags (R65, R70). -/
def cvtElem (ft tt : Nat) (su du : Bool) (mode : RMode) (a : Nat) : Nat × Nat :=
  if intTag ft then
    (if intTag tt then (satN du (tagWidth tt) (intOf su a (tagWidth ft)), 0)
     else roundVal tt mode (intVal su (tagWidth ft) a))
  else if intTag tt then roundInt (tagWidth tt) (!du) mode (decodeVal ft a)
  else roundVal tt mode (decodeVal ft a)
/-- The source element that destination element `j` takes, and its place among the converted ones (R206). -/
def cvtPlace (ft tt part j : Nat) : Option (Nat × Nat) :=
  let ns := tagCount ft
  let nd := tagCount tt
  if nd ≥ ns then (if part * ns ≤ j ∧ j < part * ns + ns then some (j - part * ns, j - part * ns) else none)
  else some (part * nd + j, j)
/-- `VCVT` (R206).  Its integer result is compared with its bounds, and clamped, as the value it stands for: unsigned where
`DU` is 1 (R221 names only a `U`; DEDUCED, log entry 22). -/
def opVcvt (e : Option Nat) (vd va tt ft part : Nat) (su du : Bool) : Op :=
  { src := srcs e [va]
    cls := fun _ _ => 4
    run := fun i s => do
      checkTags i e 0 [(va, ft)]
      let mode := match e with | some x => if bit x 2 then ⟨x % 4, 0⟩ else rmOf i | none => rmOf i
      partOut i 4 vd tt du (fun j => (cvtPlace ft tt part j).map fun p =>
        cvtElem ft tt su du mode ((vsrc i e 0 va).elem ft p.1)) s }
def opVcvts (e : Option Nat) (vd va vr tt ft : Nat) : Op :=
  { src := srcs e [va, vr]
    cls := fun _ _ => 4
    run := fun i s => do
      checkTags i e 0 [(va, ft)]
      let rho := fun j => elem 16 (vsrc i e 1 vr).bits.toNat j
      partOut i 4 vd tt false (fun j => (cvtPlace ft tt (e.getD 0 % 8) j).map fun p =>
        cvtElem ft tt false false ⟨4, rho p.2⟩ ((vsrc i e 0 va).elem ft p.1)) s }

/-! ### Quantising (R72 to R75, R208, R209) -/

/-- A loaded companding table, or the fault of R74. -/
def curveOf (i : Iss) (n : Nat) : Except Stop CTable :=
  let t := i.regs.ct.get CTable.none n
  if t.xs.isEmpty then i.trap 0x22 else .ok t
def opVquant (e : Option Nat) (vd va ct part ft : Nat) : Op :=
  { src := srcs e [va]
    cls := fun _ _ => 4
    run := fun i s => do
      checkTags i e 0 [(va, ft)]
      let t ← curveOf i ct
      partOut i 6 vd 7 false (fun j => (cvtPlace ft 7 part j).map fun p =>
        compand t.xs t.ys (rmOf i) (decodeVal ft ((vsrc i e 0 va).elem ft p.1))) s }

/-- Exponent of a finite non-zero value (R72). -/
def expQ (v : Val) : Option Int :=
  match v with
  | .fin _ m e => if m = 0 then none else some (expOf m e)
  | _ => none
/-- Where blocks start (R72): `cnt` elements so far, the last exponent among them. -/
def blockStarts (thr : Nat) : List Val → Nat → Option Int → List Bool
  | [], _, _ => []
  | v :: rest, cnt, last =>
    let far := match expQ v, last with
      | some a, some b => decide ((a - b).natAbs > thr)
      | _, _ => false
    if cnt ≥ 32 || far then true :: blockStarts thr rest 1 (expQ v)
    else false :: blockStarts thr rest (cnt + 1) ((expQ v).orElse fun _ => last)
/-- The blocks themselves. -/
def blocksOf (l : List (Bool × Val)) : List (List Val) :=
  (l.foldr (fun e acc => if e.1 then ((e.2 :: acc.2) :: acc.1, []) else (acc.1, e.2 :: acc.2)) (([], []) : List (List Val) × List Val)).1
/-- A block's exponent, clamped to −127 to 127; 0 with no finite non-zero element. -/
def blockExp (b : List Val) : Int :=
  match b.filterMap expQ with
  | [] => 0
  | x :: rest => let m := rest.foldl max x; if m < -127 then -127 else if m > 127 then 127 else m
def Val.scale (n : Int) : Val → Val
  | .fin s m e => .fin s m (e + n)
  | v => v
/-- Codes with flags and scale bytes of one block. -/
def quantBlock (mode : RMode) (b : List Val) : List ((Nat × Nat) × Nat) :=
  let x := blockExp b
  b.map fun v => (roundVal 7 mode (v.scale (-x)), (x + 127).toNat)
def opVquantBlk (e : Option Nat) (vd va md ft : Nat) : Op :=
  { src := srcs e [va]
    cls := fun _ _ => 4
    run := fun i s => do
      checkTags i e 0 [(va, ft)]
      let xs := ((vsrc i e 0 va).elems ft).map (decodeVal ft)
      let st := blockStarts (bthrOf i) xs 32 none
      let q := (blocksOf (st.zip xs)).flatMap (quantBlock (rmOf i))
      let s ← flagsOut i 6 (q.map fun r => r.1.2) s
      let pad := List.replicate (256 - q.length)
      let codes := q.map (fun r => r.1.1) ++ pad 0
      let scales := q.map (fun r => r.2) ++ pad 127
      let s := i.emit 6 (.v vd (vreg 12 codes)) s
      let s := i.emit 6 (.v (vd + 1) (vreg 12 scales)) s
      .ok (i.emit 6 (.m md (BitVec.ofNat 256 (pack 1 (st.map (·.toNat))))) s) }

def opVdeq (e : Option Nat) (vd va tt ct part : Nat) : Op :=
  { src := srcs e [va]
    cls := fun _ _ => 4
    run := fun i s => do
      checkTags i e 0 [(va, 7)]
      let t ← curveOf i ct
      wholeOut i 4 vd tt false (fun j =>
        roundVal tt (rmOf i) (decodeVal 10 (decompand t.xs t.ys ((vsrc i e 0 va).elem 7 (part * tagCount tt + j))))) s }
/-- The pair of a tag-12 operand named by its even register: codes and scale bytes, or the format-tag fault (R71). -/
def blockPair (i : Iss) (e : Option Nat) (pos va : Nat) : Except Stop (VReg × VReg) := do
  let a := vsrc i e pos va
  if va % 2 = 1 then tagFault i a.tag 12 pos
  else
    checkTag i pos a 12
    checkTag i pos (i.regs.rv (va + 1)) 12
    .ok (a, i.regs.rv (va + 1))
def opVdeqBlk (e : Option Nat) (vd va tt part : Nat) : Op :=
  { src := srcs e [va]
    cls := fun _ _ => 4
    run := fun i s => do
      let (a, b) ← blockPair i e 0 va
      wholeOut i 4 vd tt false (fun j =>
        let n := part * tagCount tt + j
        roundVal tt (rmOf i) (blockVal (a.elem 12 n) (b.elem 12 n))) s }

/-! ### Reductions (R78, R214) -/

/-- One level of the tree: neighbours combined, absent ones passed over; the flags raised. -/
def treeLevel (f : Nat → Nat → Nat × Nat) : List (Option Nat) → List (Option Nat) × Nat
  | some a :: some b :: rest => let q := treeLevel f rest; (some (f a b).1 :: q.1, (f a b).2 ||| q.2)
  | some a :: none :: rest => let q := treeLevel f rest; (some a :: q.1, q.2)
  | none :: b :: rest => let q := treeLevel f rest; (b :: q.1, q.2)
  | [a] => ([a], 0)
  | [] => ([], 0)
/-- The pairwise tree: its root, if any, and the flags of its steps. -/
def tree (f : Nat → Nat → Nat × Nat) : Nat → List (Option Nat) → Option Nat × Nat
  | 0, l => (l.headD none, 0)
  | n + 1, l => let q := treeLevel f l; let r := tree f n q.1; (r.1, q.2 ||| r.2)
/-- The result of a line: a NaN that is its only active element, which no step of the tree has met, is canonical too, and a
signalling one raises invalid (R58, R67; DEDUCED, log entry 67). -/
def settleNaN (ft : Nat) (r : Option Nat × Nat) : Option Nat × Nat :=
  if intTag ft then r
  else match r.1.map fun x => (x, decodeVal ft x) with
    | some (_, .nan sig) => (some (canonNaN ft), r.2 ||| (if sig then flagIV else 0))
    | _ => r

/-- The step and the empty result of a reduction: 0 sum, 1 maximum, 2 minimum. -/
def redStep (kind ft : Nat) (u : Bool) (mode : RMode) (a b : Nat) : Nat × Nat :=
  let w := tagWidth ft
  if intTag ft then
    (match kind with | 0 => (a + b) % 2 ^ w | 1 => maxN u w a b | _ => minN u w a b, 0)
  else match kind with
    | 0 => fadd ft mode a b
    | 1 => fminmax ft true a b
    | _ => fminmax ft false a b
def redEmpty (kind ft : Nat) (u : Bool) : Nat :=
  let w := tagWidth ft
  if intTag ft then
    (match kind with
      | 0 => 0
      | 1 => if u then 0 else 2 ^ (w - 1)
      | _ => if u then 2 ^ w - 1 else 2 ^ (w - 1) - 1)
  else match kind with
    | 0 => 0
    | 1 => signed ft true (infCode ft)
    | _ => infCode ft
/-- A reduction along rows (DIR 0) or columns. -/
def opRed (kind : Nat) (e : Option Nat) (vd va mk ft : Nat) (u dir : Bool) : Op :=
  { src := srcs e [va]
    cls := fun _ _ => if intTag ft then 3 else 4
    run := fun i s => do
      checkTags i e 0 [(va, ft)]
      let (nr, nc) ← shaped i (tagCount ft)
      let a := vsrc i e 0 va
      let m := i.regs.rm mk
      let at_ := fun j => if active m j then some (a.elem ft j) else none
      let line := fun k => if dir then (List.range nr).map (fun r => at_ (r * nc + k)) else (List.range nc).map (fun c => at_ (k * nc + c))
      let res := (List.range (if dir then nc else nr)).map fun k =>
        settleNaN ft (tree (redStep kind ft u (rmOf i)) (Nat.log2 (if dir then nr else nc)) (line k))
      wholeOut i 6 vd ft u (fun j =>
        let r := res.getD (if dir then j % nc else j / nc) (none, 0)
        (r.1.getD (redEmpty kind ft u), if active m j then r.2 else 0)) s }
def opVrsum (e : Option Nat) (vd va mk ft : Nat) (u dir : Bool) : Op := opRed 0 e vd va mk ft u dir
def opVrmax (e : Option Nat) (vd va mk ft : Nat) (u dir : Bool) : Op := opRed 1 e vd va mk ft u dir
def opVrmin (e : Option Nat) (vd va mk ft : Nat) (u dir : Bool) : Op := opRed 2 e vd va mk ft u dir

/-! ### The F slot (R79, R220) -/

def opSpecial (lat : Nat) (f : RMode → Val → Nat × Nat) (e : Option Nat) (vd va mk : Nat) : Op :=
  opE 5 lat e vd mk 10 false [(va, 10)] fun m a _ _ => f m (decodeVal 10 a)
def opFexp2 (e : Option Nat) (vd va mk : Nat) : Op := opSpecial 10 (fun _ => fexp2) e vd va mk
def opFlog2 (e : Option Nat) (vd va mk : Nat) : Op := opSpecial 10 (fun _ => flog2) e vd va mk
def opFrcp (e : Option Nat) (vd va mk : Nat) : Op := opSpecial 8 frcp e vd va mk
def opFrsq (e : Option Nat) (vd va mk : Nat) : Op := opSpecial 6 (fun _ => frsq) e vd va mk

/-! ### Meanings -/

def execVfadd (e : Option Nat) (vd va vb mk ft : Nat) (s : State) : Out :=
  issueOne (.vfadd e vd va vb mk ft) (opVfadd e vd va vb mk ft) s
def execVfsub (e : Option Nat) (vd va vb mk ft : Nat) (s : State) : Out :=
  issueOne (.vfsub e vd va vb mk ft) (opVfsub e vd va vb mk ft) s
def execVfmul (e : Option Nat) (vd va vb mk ft : Nat) (s : State) : Out :=
  issueOne (.vfmul e vd va vb mk ft) (opVfmul e vd va vb mk ft) s
def execVfma (e : Nat) (vd va vb mk ft : Nat) (s : State) : Out := issueOne (.vfma e vd va vb mk ft) (opVfma e vd va vb mk ft) s
def execVfms (e : Nat) (vd va vb mk ft : Nat) (s : State) : Out := issueOne (.vfms e vd va vb mk ft) (opVfms e vd va vb mk ft) s
def execVfnma (e : Nat) (vd va vb mk ft : Nat) (s : State) : Out :=
  issueOne (.vfnma e vd va vb mk ft) (opVfnma e vd va vb mk ft) s
def execVfmin (e : Option Nat) (vd va vb mk ft : Nat) (s : State) : Out :=
  issueOne (.vfmin e vd va vb mk ft) (opVfmin e vd va vb mk ft) s
def execVfmax (e : Option Nat) (vd va vb mk ft : Nat) (s : State) : Out :=
  issueOne (.vfmax e vd va vb mk ft) (opVfmax e vd va vb mk ft) s
def execVfabs (e : Option Nat) (vd va mk ft : Nat) (s : State) : Out := issueOne (.vfabs e vd va mk ft) (opVfabs e vd va mk ft) s
def execVfneg (e : Option Nat) (vd va mk ft : Nat) (s : State) : Out := issueOne (.vfneg e vd va mk ft) (opVfneg e vd va mk ft) s
def execVfcmp (e : Option Nat) (md va vb cond ft : Nat) (s : State) : Out :=
  issueOne (.vfcmp e md va vb cond ft) (opVfcmp e md va vb cond ft) s
def execVfcls (e : Option Nat) (md va cls ft : Nat) (s : State) : Out :=
  issueOne (.vfcls e md va cls ft) (opVfcls e md va cls ft) s
def execVfexp (e : Option Nat) (vd va mk ft : Nat) (s : State) : Out := issueOne (.vfexp e vd va mk ft) (opVfexp e vd va mk ft) s
def execVfscl (e : Option Nat) (vd va vb mk ft : Nat) (s : State) : Out :=
  issueOne (.vfscl e vd va vb mk ft) (opVfscl e vd va vb mk ft) s
def execVcvt (e : Option Nat) (vd va tt ft part : Nat) (su du : Bool) (s : State) : Out :=
  issueOne (.vcvt e vd va tt ft part su du) (opVcvt e vd va tt ft part su du) s
def execVcvts (e : Option Nat) (vd va vr tt ft : Nat) (s : State) : Out :=
  issueOne (.vcvts e vd va vr tt ft) (opVcvts e vd va vr tt ft) s
def execVquant (e : Option Nat) (vd va ct part ft : Nat) (s : State) : Out :=
  issueOne (.vquant e vd va ct part ft) (opVquant e vd va ct part ft) s
def execVquantBlk (e : Option Nat) (vd va md ft : Nat) (s : State) : Out :=
  issueOne (.vquantBlk e vd va md ft) (opVquantBlk e vd va md ft) s
def execVdeq (e : Option Nat) (vd va tt ct part : Nat) (s : State) : Out :=
  issueOne (.vdeq e vd va tt ct part) (opVdeq e vd va tt ct part) s
def execVdeqBlk (e : Option Nat) (vd va tt part : Nat) (s : State) : Out :=
  issueOne (.vdeqBlk e vd va tt part) (opVdeqBlk e vd va tt part) s
def execVrsum (e : Option Nat) (vd va mk ft : Nat) (u dir : Bool) (s : State) : Out :=
  issueOne (.vrsum e vd va mk ft u dir) (opVrsum e vd va mk ft u dir) s
def execVrmax (e : Option Nat) (vd va mk ft : Nat) (u dir : Bool) (s : State) : Out :=
  issueOne (.vrmax e vd va mk ft u dir) (opVrmax e vd va mk ft u dir) s
def execVrmin (e : Option Nat) (vd va mk ft : Nat) (u dir : Bool) (s : State) : Out :=
  issueOne (.vrmin e vd va mk ft u dir) (opVrmin e vd va mk ft u dir) s
def execFexp2 (e : Option Nat) (vd va mk : Nat) (s : State) : Out := issueOne (.fexp2 e vd va mk) (opFexp2 e vd va mk) s
def execFlog2 (e : Option Nat) (vd va mk : Nat) (s : State) : Out := issueOne (.flog2 e vd va mk) (opFlog2 e vd va mk) s
def execFrcp (e : Option Nat) (vd va mk : Nat) (s : State) : Out := issueOne (.frcp e vd va mk) (opFrcp e vd va mk) s
def execFrsq (e : Option Nat) (vd va mk : Nat) (s : State) : Out := issueOne (.frsq e vd va mk) (opFrsq e vd va mk) s

end Sys2Proof.Machine
end

