-- ==== Sys2Proof/Machine/Matrix.lean ====
section
/-!
DEFINITION. The matrix slot M (R223 to R233): claims, operand loading, beats and drains.
-/

namespace Sys2Proof.Machine

open Sys2Proof

/-- A used unit must be claimed by the issuing context (R223). -/
def needUnit (i : Iss) (s : State) (kind unit : Nat) : Except Stop Unit :=
  if claimed s i.core i.ctx kind unit then .ok () else i.trap 0x26

/-! ### Claims (R224) -/

/-- Some unit of a range belongs to another context. -/
def claimClash (i : Iss) (s : State) (kind first cnt : Nat) : Bool :=
  (seqFrom first (cnt + 1)).any fun n => match (s.core i.core).claims.find (claimKey kind n) with
    | some e => e.owner != i.ctx
    | none => false
/-- One unit claimed: a unit already held loses its mark and keeps its contents. -/
def claimOne (i : Iss) (kind : Nat) (s : State) (n : Nat) : State :=
  let held := owns s i.core i.ctx kind n
  let s := s.modCore i.core fun k => { k with claims := k.claims.set (claimKey kind n) ⟨i.ctx, false⟩ }
  if held then s else i.emit 1 (.zero kind n false) s
def opMclaim (kind first cnt : Nat) : Op :=
  { cls := slotClass
    run := fun i s =>
      if claimClash i s kind first cnt then i.trap 0x26 else .ok ((seqFrom first (cnt + 1)).foldl (claimOne i kind) s) }
/-- MREL: inside an open segment the units are marked until its commit. -/
def opMrel (kind first cnt : Nat) : Op :=
  { cls := slotClass
    run := fun i s =>
      if i.inSeg then
        let mark := fun (e : Nat × Claim) =>
          if e.2.owner = i.ctx ∧ claimKey kind first ≤ e.1 ∧ e.1 ≤ claimKey kind (first + cnt) then (e.1, { e.2 with mark := true }) else e
        .ok (s.modCore i.core fun k => { k with claims := k.claims.map mark })
      else .ok (i.emit 1 (.release kind first (cnt + 1)) s) }
def opMfmt (fa fb : Nat) (ca cb : Bool) (ct : Nat) (ua ub : Bool) : Op :=
  { cls := slotClass, run := fun i s => .ok (i.emit 1 (.arr ⟨fa, fb, ca, cb, ct, ua, ub⟩) s) }

/-! ### Rows -/

def osRow (s : State) (c os row : Nat) : Nat := ((s.core c).os.get 0 (64 * os + row)).toNat
def accRow (s : State) (c acc row : Nat) : Nat := ((s.core c).acc.get 0 (64 * acc + row)).toNat
/-- Plane 0 codes, plane 1 scales (R223). -/
def ltRow (s : State) (c lt plane row : Nat) : Nat := ((s.core c).lt.get 0 (128 * lt + 64 * plane + row)).toNat
def osLines (os row : Nat) : List (Nat × Nat) := (seqFrom (2 * (64 * os + row)) 2).map fun u => (2, u)
def accLines (acc row : Nat) : List (Nat × Nat) := (seqFrom (4 * (64 * acc + row)) 4).map fun u => (1, u)
/-- A row index stepped by a sticky re-issue (R112). -/
def Iss.row (i : Iss) (r : Nat) : Nat := (r + i.k) % 64
/-- Bytes `128 * part` on of a register (R228). -/
def halfOf (v : VReg) (part : Bool) : BitVec 1024 := BitVec.ofNat 1024 (v.bits.toNat >>> (1024 * part.toNat))

/-! ### Loading operands (R227 to R229) -/

def mfillAddr (e : Option Nat) (an off : Nat) (i : Iss) : Nat :=
  let o : Int := match e with | some x => sgn x 29 | none => sgn off 11 * 1024
  wrapI ((i.regs.ra an).toNat + o) 57
/-- MFILL (R227): the only M-slot instruction that can freeze. -/
def opMfill (e : Option Nat) (os grp an off : Nat) : Op :=
  { cls := slotClass
    wait := fun i s => loadWait true 1024 (fun i => [mfillAddr e an off i]) i s
    run := fun i s => do
      needUnit i s 0 os
      let bs ← loadAll i s true 1024 1024 [mfillAddr e an off i]
      let s ← i.reserve ((seqFrom (8 * grp) 8).flatMap (osLines os)) s
      let x := ofBytes (bs.flatMap id)
      .ok ((List.range 8).foldl (fun s q => i.emit 4 (.os (64 * os + 8 * grp + q) (BitVec.ofNat 1024 (x >>> (1024 * q)))) s) s) }
/-- The source of MPUSH and MSHIFT without BLK (R228). -/
def pushSource (i : Iss) (e : Option Nat) (va : Nat) : Except Stop VReg :=
  let v := vsrc i e 0 va
  if v.tag = 0 ∨ v.tag = 1 ∨ (5 ≤ v.tag ∧ v.tag ≤ 9) then .ok v else tagFault i v.tag 0 0
def opMpush (e : Option Nat) (lt row va : Nat) (part blk : Bool) : Op :=
  { src := srcs e [va]
    cls := slotClass
    run := fun i s => do
      needUnit i s 2 lt
      let r := i.row row
      if blk then
        let (a, b) ← blockPair i e 0 va
        .ok (i.emit 2 (.lt (128 * lt + 64 + r) (halfOf b part)) (i.emit 2 (.lt (128 * lt + r) (halfOf a part)) s))
      else
        let v ← pushSource i e va
        .ok (i.emit 2 (.lt (128 * lt + r) (halfOf v part)) s) }
def opMshift (e : Option Nat) (os row va : Nat) (part blk : Bool) : Op :=
  { src := srcs e [va]
    cls := slotClass
    run := fun i s => do
      needUnit i s 0 os
      let r := i.row row
      if blk then
        needUnit i s 0 (os + 1)
        let (a, b) ← blockPair i e 0 va
        let s ← i.reserve (osLines os r ++ osLines (os + 1) r) s
        .ok (i.emit 2 (.os (64 * (os + 1) + r) (halfOf b part)) (i.emit 2 (.os (64 * os + r) (halfOf a part)) s))
      else
        let v ← pushSource i e va
        let s ← i.reserve (osLines os r) s
        .ok (i.emit 2 (.os (64 * os + r) (halfOf v part)) s) }
/-- A slot copied to a plane of a latch, row by row. -/
def latchPlane (i : Iss) (lt plane os : Nat) (s : State) : State :=
  (List.range 64).foldl (fun s r => i.emit 2 (.lt (128 * lt + 64 * plane + r) (BitVec.ofNat 1024 (osRow s i.core os r))) s) s
def opMlatch (lt os : Nat) (blk : Bool) : Op :=
  { cls := slotClass
    run := fun i s => do
      needUnit i s 2 lt
      needUnit i s 0 os
      if blk then
        needUnit i s 0 (os + 1)
        .ok (latchPlane i lt 1 (os + 1) (latchPlane i lt 0 os s))
      else .ok (latchPlane i lt 0 os s) }

/-! ### The beat (R226, R230, R76, R77) -/

/-- The exact value of an operand element of a floating-point class (R226). -/
def operandVal (fmt : Nat) (table : Option (List Nat)) (code scale : Nat) : Val :=
  match table with
  | some t => decodeVal 10 (t.getD (code % 256) 0)
  | none => if fmt = 12 then blockVal code scale else decodeVal fmt code
/-- Bytes an element takes and where element `k` of the streamed, and element `(k, j)` of the stationary operand stand (R226). -/
def streamElem (cls row k : Nat) : Nat := if cls = 1 then elem 16 row k else elem 8 row k
def stationElem (cls : Nat) (rows : List Nat) (k j : Nat) : Nat :=
  if cls = 1 then elem 16 (rows.getD k 0) j else elem 8 (rows.getD (k / 2) 0) (64 * (k % 2) + j)
/-- The groups of 16 in ascending order (R76). -/
def groups : Nat → List (Val × Nat) → List (List (Val × Nat))
  | 0, _ => []
  | n + 1, l => l.take 16 :: groups n (l.drop 16)
/-- One accumulator element of a floating-point beat: the code and the flags. -/
def beatSum (acc : Nat) (ps : List (Val × Nat)) : Nat × Nat :=
  (groups (ps.length / 16) ps).foldl (fun a g =>
    let r := sumRound 10 ⟨0, 0⟩ (decodeVal 10 a.1 :: g.map (·.1))
    (r.1, a.2 ||| orAll (g.map (·.2)) ||| r.2)) (acc, 0)
/-- The decode table of a companded operand, none where the operand is not companded (R75). -/
def decodeTable (i : Iss) (comp : Bool) (ct : Nat) : Except Stop (Option (List Nat)) :=
  if comp then do
    let t ← curveOf i ct
    .ok (some ((List.range 256).map (decompand t.xs t.ys)))
  else .ok none

/-- The result row of a beat and its flags: stream row and its scale row, code and scale rows of the latch, accumulator row. -/
def beat (f : ArrFmt) (ta tb : Option (List Nat)) (x xs : Nat) (w ws : List Nat) (acc : Nat) : List (Nat × Nat) :=
  let cls := arrayClass f.fa
  let n := if cls = 1 then 64 else 128
  if cls = 3 then
    (List.range 64).map fun j =>
      let z := (List.range n).foldl (fun (z : Int) k => z + intOf f.ua (streamElem cls x k) 8 * intOf f.ub (stationElem cls w k j) 8) 0
      (wrapI ((elem 32 acc j : Nat) + z) 32, 0)
  else
    let a := (List.range n).map fun k => operandVal f.fa ta (streamElem cls x k) (elem 8 xs k)
    (List.range 64).map fun j =>
      let ps := (a.zip (List.range n)).map fun q =>
        mulVal q.1 (operandVal f.fb tb (stationElem cls w q.2 j) (elem 8 (ws.getD (q.2 / 2) 0) (64 * (q.2 % 2) + j)))
      beatSum (elem 32 acc j) ps

/-- The energy class of a beat (R338). -/
def beatClass (i : Iss) (_ : State) : Nat := match arrayClass i.regs.arr.fa with | 1 => 6 | 2 => 7 | _ => 8
def opMacc (e : Option Nat) (acc row os lt : Nat) (za : Bool) : Op :=
  { cls := beatClass
    run := fun i s => do
      let f := i.regs.arr
      needUnit i s 1 acc
      needUnit i s 0 os
      needUnit i s 2 lt
      if f.fa = 12 ∧ os % 2 = 1 then i.trap 0x27
      else if f.fa = 12 ∧ !claimed s i.core i.ctx 0 (os + 1) then i.trap 0x26
      else
        let ta ← decodeTable i f.ca f.ct
        let tb ← decodeTable i f.cb f.ct
        let r := i.row row
        let sr := i.row (e.getD row)
        let rows := fun plane => (List.range 64).map (ltRow s i.core lt plane)
        let out := beat f ta tb (osRow s i.core os sr) (osRow s i.core (os + 1) sr) (rows 0) (rows 1)
          (if za then 0 else accRow s i.core acc r)
        let s ← i.reserve (accLines acc r) s
        let fl := orAll (out.map (·.2))
        let s := if fl = 0 then s else i.emit 6 (.fmtOr fl) s
        .ok (i.emit 6 (.acc (64 * acc + r) (BitVec.ofNat 2048 (pack 32 (out.map (·.1))))) s) }
def opMzero (acc : Nat) : Op :=
  { cls := slotClass
    run := fun i s => do
      needUnit i s 1 acc
      let s ← i.reserve ((unitLines 1 acc).map fun u => (1, u)) s
      .ok (i.emit 1 (.zero 1 acc true) s) }

/-! ### The drain (R232) -/

/-- One element drained: a copy into FP32 and INT32, else rounded or saturated. -/
def drainElem (tt : Nat) (mode : RMode) (x : Nat) : Nat × Nat :=
  if tt = 3 ∨ tt = 10 then (x, 0)
  else if intTag tt then (satN false (tagWidth tt) (sgn x 32), 0)
  else roundVal tt mode (decodeVal 10 x)
def opMdrain (acc row vd tt part : Nat) (clr : Bool) : Op :=
  { cls := slotClass
    run := fun i s => do
      needUnit i s 1 acc
      let r := i.row row
      let x := accRow s i.core acc r
      let old := i.regs.rv vd
      let es := (List.range (tagCount tt)).map fun j =>
        if 64 * part ≤ j ∧ j < 64 * part + 64 then (let q := drainElem tt (rmOf i) (elem 32 x (j - 64 * part)); (q.1, true, q.2))
        else (old.elem tt j, false, 0)
      let fl := orAll (es.map fun q => q.2.2)
      let s := if fl = 0 then s else i.emit 8 (.fmtOr fl) s
      let s ← emitV i 8 vd tt false (es.map fun q => (q.1, q.2.1)) s
      if clr then
        let s ← i.reserve (accLines acc r) s
        .ok (i.emit 1 (.acc (64 * acc + r) 0) s)
      else .ok s }

/-! ### Meanings -/

def execMclaim (kind first cnt : Nat) (s : State) : Out := issueOne (.mclaim kind first cnt) (opMclaim kind first cnt) s
def execMrel (kind first cnt : Nat) (s : State) : Out := issueOne (.mrel kind first cnt) (opMrel kind first cnt) s
def execMfill (e : Option Nat) (os grp an off : Nat) (s : State) : Out :=
  issueOne (.mfill e os grp an off) (opMfill e os grp an off) s
def execMlatch (lt os : Nat) (blk : Bool) (s : State) : Out := issueOne (.mlatch lt os blk) (opMlatch lt os blk) s
def execMpush (e : Option Nat) (lt row va : Nat) (part blk : Bool) (s : State) : Out :=
  issueOne (.mpush e lt row va part blk) (opMpush e lt row va part blk) s
def execMshift (e : Option Nat) (os row va : Nat) (part blk : Bool) (s : State) : Out :=
  issueOne (.mshift e os row va part blk) (opMshift e os row va part blk) s
def execMacc (e : Option Nat) (acc row os lt : Nat) (za : Bool) (s : State) : Out :=
  issueOne (.macc e acc row os lt za) (opMacc e acc row os lt za) s
def execMdrain (acc row vd tt part : Nat) (clr : Bool) (s : State) : Out :=
  issueOne (.mdrain acc row vd tt part clr) (opMdrain acc row vd tt part clr) s
def execMzero (acc : Nat) (s : State) : Out := issueOne (.mzero acc) (opMzero acc) s
def execMfmt (fa fb : Nat) (ca cb : Bool) (ct : Nat) (ua ub : Bool) (s : State) : Out :=
  issueOne (.mfmt fa fb ca cb ct ua ub) (opMfmt fa fb ca cb ct ua ub) s

end Sys2Proof.Machine
end

