-- ==== Sys2Proof/Machine/NearMem.lean ====
section
/-!
DEFINITION. Near-memory commands at the base die (R96, R180, R181): acceptance, completion, the answer to a fence.
-/

namespace Sys2Proof.Machine

open Sys2Proof

/-! ### Ranges -/

/-- Start addresses and lengths of the 64 KiB pieces of a range. -/
def pageCuts (va n : Nat) : List (Nat × Nat) :=
  (List.range ((va % 2 ^ 16 + n + 2 ^ 16 - 1) / 2 ^ 16)).map fun j =>
    let lo := if j = 0 then va else (va / 2 ^ 16 + j) * 2 ^ 16
    (lo, Nat.min (va + n) ((lo / 2 ^ 16 + 1) * 2 ^ 16) - lo)
/-- Why a command performs nothing (R179, R181): its status, and the failed translation that also gives a deferred cause. -/
structure NmFail where
  status : Nat
  fail : Option (XFail × Nat)
  deriving DecidableEq, Repr
/-- A page translated for every kind of access asked for. -/
def nmPage (s : State) (a : Async) (va : Nat) : List AccKind → Except XFail Xl
  | [] => .error .perm
  | [k] => xlateP s a.part a.core a.level k va
  | k :: rest =>
    match xlateP s a.part a.core a.level k va with
    | .error f => .error f
    | .ok _ => nmPage s a va rest
/-- A range translated to HBM4, one stretch a page.  A range that translates to other memory has status 2 too (DESIGN CHOICE, log
entry 69). -/
def nmRange (s : State) (a : Async) (ks : List AccKind) : List (Nat × Nat) → Except NmFail (List Stretch)
  | [] => .ok []
  | (va, n) :: rest =>
    match nmPage s a va ks, nmRange s a ks rest with
    | .error f, _ => .error ⟨2, some (f, va)⟩
    | _, .error e => .error e
    | .ok x, .ok l => if x.cls ≠ 3 then .error ⟨2, none⟩ else .ok (⟨va, n, x.ga⟩ :: l)
/-- What a command does to its destination: AXPYF and SCALE read it too (R180, R280). -/
def nmKinds (d : NmDesc) : List AccKind := if d.op ≤ 1 then [.read, .write] else [.write]
/-- The 64 KiB pieces of a command's ranges. -/
def nmCuts (d : NmDesc) : List (Nat × Nat) := pageCuts d.dst d.dstBytes ++ (if d.reads then pageCuts d.src d.srcBytes else [])
/-- A walk for one of a command's pages would wait for a stack that retrains (R334). -/
def nmPaused (s : State) (a : Async) (d : NmDesc) : Bool := (nmCuts d).any fun c => walkPaused s a.part a.core c.1
/-- Destination and source of a command, within one stack (R179). -/
def nmRanges (s : State) (a : Async) (d : NmDesc) : Except NmFail (List Stretch × List Stretch) :=
  match nmRange s a (nmKinds d) (pageCuts d.dst d.dstBytes) with
  | .error e => .error e
  | .ok dt =>
    match (if d.reads then nmRange s a [.read] (pageCuts d.src d.srcBytes) else .ok []) with
    | .error e => .error e
    | .ok st =>
      let ends := (dt ++ st).flatMap fun t => [stackOf t.ga, stackOf (t.ga + t.len - 1)]
      if ends.all (· == ends.headD none) then .ok (dt, st) else .error ⟨3, none⟩
/-- A command counts once for each page of access mode 3 that its stretches lie in (R285). -/
def nmCount (a : Async) : State → List Nat → List Stretch → State
  | s, _, [] => s
  | s, seen, t :: rest =>
    match pagedXl s a.part a.core t.va with
    | .ok x => if seen.contains x.page then nmCount a s seen rest else nmCount a (countVa s a.part a.core t.va x) (x.page :: seen) rest
    | .error _ => nmCount a s seen rest
/-- Global address of a virtual one in a translated range. -/
def gaIn (l : List Stretch) (va : Nat) : Nat :=
  match l.find? (fun t => decide (t.va ≤ va ∧ va < t.va + t.len)) with
  | some t => t.ga + (va - t.va)
  | none => 0
/-- 64-byte lines of a translated range, each with the virtual address of its first byte in the range. -/
def linesOf (l : List Stretch) : List (Nat × Nat) :=
  l.flatMap fun t => (seqFrom (t.ga / 64) ((t.ga + t.len - 1) / 64 + 1 - t.ga / 64)).map fun n => (n, t.va + (64 * n - t.ga))

/-! ### NMCMD_ACCEPT (R96) -/

/-- Commands whose ranges are in use at a stack. -/
def busyCmds (t : Stack) : List Nat := (t.busy.map (·.1)).eraseDups
/-- Kinds of failed translation that give a deferred cause beside status 2 (R281, R299). -/
def nmCause (f : XFail) (va : Nat) : Option Cause :=
  match f with
  | .poison .. => some (xfailCause f va)
  | .lost .. => some (xfailCause f va)
  | _ => none
/-- A command whose ranges do not translate: its status, and its deferred cause (R181, R281, R290). -/
def nmRefuse (s : State) (a : Async) (e : NmFail) : State :=
  match e.fail with
  | some (f, va) =>
    let s := noteFail s a.core f
    (match nmCause f va with | some q => s.report a q | none => s)
  | none => s
/-- A command is taken with its ranges as they translate now, once (R96, R289). -/
def nmTake (s : State) (a : Async) (d : NmDesc) (cw : CWord) (stack : Option Nat) : Except NmFail (List Stretch × List Stretch) → State
  | .ok (dt, st) => s.setOp { a with kind := .nmcmd d cw stack (some ⟨0, dt, st⟩) }
  | .error e => (nmRefuse s a e).setOp { a with kind := .nmcmd d cw stack (some ⟨e.status, [], []⟩) }
/-- A stack that takes the command, or makes it wait in arrival order. -/
def acceptAt (s : State) (a : Async) (d : NmDesc) (cw : CWord) (n : Nat) : Option State :=
  let t := s.hbmStacks.get Stack.reset n
  let turn := t.queue.head? == some a.id || (t.queue.isEmpty)
  if t.paused || nmPaused s a d then none
  else if !turn || (busyCmds t).length ≥ 64 then
    (if t.queue.contains a.id then none
     else some { s with hbmStacks := s.hbmStacks.set n { t with queue := t.queue ++ [a.id] } })
  else
    let ranges := nmRanges s a d
    let new := match ranges with
      | .ok (dt, _) => dt.map fun r => (a.id, r.ga / 64, (r.ga + r.len - 1) / 64)
      | .error _ => []
    let s := { s with hbmStacks := s.hbmStacks.set n { t with busy := t.busy ++ new, queue := t.queue.filter (· != a.id) } }
    some (nmTake s a d cw (some n) ranges)
/-- A command its stack has taken. -/
def OpK.accepted : OpK → Bool
  | .nmcmd _ _ _ taken => taken.isSome
  | _ => false
/-- The issuer's command queue has room again, in the part's newest image where the part is out (R96, R269). -/
def nmTaken (s : State) (a : Async) : State :=
  let less := fun (k : Ctx) => { k with nmOut := k.nmOut - 1 }
  if s.holder a then s.modCtx a.core a.ctx less
  else if s.isOut a then { s with images := modImage a less s.images } else s
/-- NMCMD_ACCEPT. -/
def execNmcmdAccept (id : Nat) (s : State) : Out :=
  onOp s id fun a => match a.kind with
    | .nmcmd d cw stack none =>
      let r := match stack with
        | some n => acceptAt s a d cw n
        | none => if nmPaused s a d then none else some (nmTake s a d cw none (nmRanges s a d))
      r.map fun s' =>
        if ((s'.findOp id).map fun b => b.kind.accepted) == some true then nmTaken s' a else s'
    | _ => none

/-! ### NMCMD_COMPLETE (R180, R181) -/

/-- An element's new value (R180): format, operation, ALPHA and BETA, destination and source elements. -/
def nmElem (d : NmDesc) (x y : Nat) : Nat :=
  let f := d.fmt
  let v := decodeVal f
  match d.op with
  | 0 => (sumRound f ⟨0, 0⟩ [(mulVal (decodeVal 10 d.alpha) (v x)).1, (mulVal (decodeVal 10 d.beta) (v y)).1]).1
  | 1 => (roundVal f ⟨0, 0⟩ (mulVal (decodeVal 10 d.alpha) (v x)).1).1
  | 2 => (roundVal f ⟨0, 0⟩ (decodeVal 10 d.alpha)).1
  | _ => y
/-- REDUCE: the group rule of R76 from +0 (R180). -/
def nmReduce (d : NmDesc) (ys : List Nat) : Nat :=
  (groups ((ys.length + 15) / 16) (ys.map fun y => (decodeVal d.fmt y, 0))).foldl
    (fun acc g => (sumRound 10 ⟨0, 0⟩ (decodeVal 10 acc :: g.map (·.1))).1) 0

/-- Race checks of a command's lines on checked pages: the state, the lines that fail, the first cause, which names the virtual
address (R102, R105). -/
def nmRaces (a : Async) (chk : Nat → Bool) (write : Bool) : State → List (Nat × Nat) → State × List Nat × Option Cause
  | s, [] => (s, [], none)
  | s, (l, va) :: rest =>
    if !chk l then nmRaces a chk write s rest
    else match raceAccess s a.core a.j (a.task % 2 ^ 16) a.task l write false with
      | .ok s => nmRaces a chk write s rest
      | .error e =>
        let r := nmRaces a chk write s rest
        (r.1, l :: r.2.1, some (raceCause e va 0))
/-- Lines of a range whose page is checked. -/
def checkedLine (s : State) (a : Async) (l : List Stretch) (line : Nat) : Bool :=
  match l.find? (fun t => decide (t.ga / 64 ≤ line ∧ line ≤ (t.ga + t.len - 1) / 64)) with
  | some t => (match pagedXl s a.part a.core t.va with | .ok x => x.chk | .error _ => false)
  | none => false

/-- The bytes a command writes, the lines it poisons, and its status dword (R180, R181). -/
structure NmOut where
  bytes : List (Nat × Byte)
  bad : List Nat
  status : Nat
  deriving DecidableEq, Repr
/-- STATUS, NPOIS and FIRST from the indices in poisoned lines. -/
def nmStatus (bad : List Nat) : Nat :=
  match bad with
  | [] => 0
  | i :: _ => 2 ^ 60 + Nat.min bad.length (2 ^ 28 - 1) * 2 ^ 32 + i
def nmWork (s : State) (d : NmDesc) (dt st : List Stretch) (skipD skipS : List Nat) : NmOut :=
  let n := d.size
  let dga := fun i => gaIn dt (d.dst + n * i)
  let sga := fun i => gaIn st (d.src + n * i)
  let at_ := fun ga => readNat s.mem n ga
  let idx := List.range d.count
  if d.op = 4 then
    let l := dga 0 / 64
    let bad := s.poisoned l || idx.any fun i => s.poisoned (sga i / 64)
    if bad then ⟨[], [l], nmStatus [0]⟩
    else if skipD.contains l || !skipS.isEmpty then ⟨[], [], 0⟩
    else ⟨cells (dga 0) (toBytes 4 (nmReduce d (idx.map fun i => at_ (sga i)))), [], 0⟩
  else
    let whole := fun l => (seqFrom (64 * l) 64).all fun ga => dt.any fun t => decide (t.ga ≤ ga ∧ ga < t.ga + t.len)
    let badLine := fun i =>
      let l := dga i / 64
      (s.poisoned l && (decide (d.op ≤ 1) || !whole l)) || (d.reads && s.poisoned (sga i / 64))
    let bad := ((idx.filter badLine).map fun i => dga i / 64).eraseDups
    let run := idx.filter fun i => !(bad.contains (dga i / 64) || skipD.contains (dga i / 64) || (d.reads && skipS.contains (sga i / 64)))
    ⟨run.flatMap fun i => cells (dga i) (toBytes n (nmElem d (at_ (dga i)) (if d.reads then at_ (sga i) else 0))), bad,
      nmStatus (idx.filter fun i => bad.contains (dga i / 64))⟩

/-- The status dword is written, or the failure reported (R181). -/
def nmReport (s : State) (a : Async) (d : NmDesc) (status : Nat) : State :=
  if d.stat = 0 then s
  else if a.core < 512 ∧ inScratch d.stat 8 then ownSideWrite s a d.stat (toBytes 8 status)
  else sideWrite s a d.stat (toBytes 8 status)
/-- The status is written and the completion word takes effect; a part that has ended clears the command's range, one that is out in an
image keeps it until its `NMFENCE` or its end (R96). -/
def nmFinish (s : State) (a : Async) (d : NmDesc) (cw : CWord) (status : Nat) : State :=
  let s := nmReport s a d status
  let s := finish s a cw
  if s.holder a || s.isOut a then s else clearBusy s [a.id]
/-- The command performs as a whole, on the ranges that its stack has taken. -/
def nmComplete (s : State) (a : Async) (d : NmDesc) (cw : CWord) (w : NmPlace) : State :=
  if w.status ≠ 0 then nmFinish s a d cw (w.status * 2 ^ 60)
  else
    let s := nmCount a s [] (w.dst ++ w.src)
    let rd := nmRaces a (checkedLine s a w.dst) true s (linesOf w.dst)
    let rs := nmRaces a (checkedLine s a w.src) false rd.1 (linesOf w.src)
    let s := match rd.2.2, rs.2.2 with
      | some q, _ => rs.1.report a q
      | none, some q => rs.1.report a q
      | none, none => rs.1
    let out := nmWork s d w.dst w.src rd.2.1 rs.2.1
    let s := s.store out.bytes none
    let s := { s with poison := s.poison ++ out.bad.filter fun l => !s.poison.contains l }
    nmFinish s a d cw out.status
/-- NMCMD_COMPLETE: once the command is accepted, its stack is at work and its status can be written. -/
def execNmcmdComplete (id : Nat) (s : State) : Out :=
  onOp s id fun a => match a.kind with
    | .nmcmd d cw stack (some w) =>
      let paused := match stack with | some n => (s.hbmStacks.get Stack.reset n).paused | none => false
      let late := d.stat != 0 && !(decide (a.core < 512) && inScratch d.stat 8) && reach s a .write d.stat == .wait
      if paused || late then none else some (nmComplete s a d cw w)
    | _ => none

/-! ### NMFENCE_ANSWER (R96) -/

/-- A command is in progress at a stack, accepted or not. -/
def cmdAt (s : State) (id stack : Nat) : Bool :=
  s.ops.any fun a => a.id == id && (match a.kind with | .nmcmd _ _ (some n) _ => n == stack | _ => false)
def execNmfenceAnswer (id stack : Nat) (s : State) : Out :=
  onOp s id fun a => match a.kind with
    | .nmfence hbmStacks cmds =>
      if !hbmStacks.contains stack || cmds.any (cmdAt s · stack) then none
      else
        let t := s.hbmStacks.get Stack.reset stack
        let s := { s with hbmStacks := s.hbmStacks.set stack { t with busy := t.busy.filter fun b => !cmds.contains b.1 } }
        let rest := hbmStacks.filter (· != stack)
        if !rest.isEmpty then some (s.setOp { a with kind := .nmfence rest cmds })
        else
          let s := s.dropOp a.id
          some (if s.holder a then s.modCtx a.core a.ctx fun k => { k with nmFences := k.nmFences.filter (· != a.id) } else s)
    | _ => none

end Sys2Proof.Machine
end

