-- ==== Sys2Proof/Machine/Contexts.lean ====
section
/-!
DEFINITION. The events of contexts and their causes (R32, R39, R105, R264, R265, R274, R324 to R328), and the writes of registers
that have a row of their own (R66, R258, R259) or none (R5, R346).
-/

namespace Sys2Proof.Machine

open Sys2Proof

/-! ### Becoming ready (R31, R39, R274, R340) -/

/-- A granule that an access waited for has been written, or its transfer has ceased (R27). -/
def granuleMet (s : State) (c x base lat : Nat) : Bool :=
  let t := (s.ctx c x).regs.ltime
  !((pendingGrans s c x).any fun p => p.2.base == base && (decide (p.1 ≤ t) || (decide (p.1 ≤ t + lat) && p.2.left != 0)))
/-- A dependence is met, or what it waited for has come to a trap that the bundle takes when it issues (R31). -/
def depMet (s : State) (c x : Nat) (d : Dep) : Bool :=
  let k := s.ctx c x
  match d with
  | .barrier bar phase =>
    let b := (s.core c).bars.get Barrier.start bar
    b.brk || b.exp == 0 || b.met phase
  | .recv ch n => decide ((k.queues.get [] ch).length ≥ n)
  | .monitor mon val =>
    let m := k.mons.get Monitor.start mon
    !m.armed || m.value.any (· ≥ val)
  | .granule base lat => granuleMet s c x base lat
  | .skid need => decide (claims s c x none + need ≤ 16384) || decide (claims s c x (some k.regs.ltime) + need > 16384)
  | .seqQueue => decide (seqQueued s c < 16)
  | .credit ch n => decide (k.outBeats.get 0 ch + n ≤ 256)
  | .nmQueue => decide (k.nmOut < 8)
  | .intake => decide ((intakeOf s c x).length < 16)
  | .collQueue => decide (collQueued s c x < 4)
  | .idle prod obs => decide ((s.part (s.partOf c)).tqprod > prod) || decide (k.obs > obs)
/-- A frozen context whose dependence is met. -/
def thaw (s : State) (c x : Nat) (idle : Bool) : Option State :=
  let k := s.ctx c x
  match k.status, k.dep with
  | .frozen, some d => if d.isIdle == idle && depMet s c x d then some (makeReady s c x) else none
  | _, _ => none
/-- CONTEXT_READY. -/
def execContextReady (core ctx : Nat) (s : State) : Out := event s (thaw s core ctx false)
/-- IDLE_WAKE. -/
def execIdleWake (core ctx : Nat) (s : State) : Out := event s (thaw s core ctx true)

/-! ### Records and deferred causes (R105, R262, R264, R326) -/

/-- A held record is posted once its queue has space; with the supervisor's context go the records of bound events that are held
(R264, R281). -/
def postHeld (s : State) (c x : Nat) : Option State :=
  let p := s.partOf c
  let s' := if s.isSuper c x then recFlush s p else s
  match postOwn s' c x with
  | some t => some t
  | none => if (s'.part p).recHeld.length != (s.part p).recHeld.length then some s' else none
/-- HELD_RECORD_POST. -/
def execHeldRecordPost (core ctx : Nat) (s : State) : Out := event s (postHeld s core ctx)

/-- The context stands where a deferred cause is taken: at a boundary of the active context, or frozen. -/
def atBoundary (s : State) (c x : Nat) : Bool :=
  let k := s.ctx c x
  (decide (k.status = .ready) && (s.core c).active == some x && !(s.core c).halted) || decide (k.status = .frozen)
/-- A deferred cause at its boundary: INFO3 names it (R262); a consumed line rewinds an open segment once (R326). -/
def takeDeferred (s : State) (c x : Nat) : Option State :=
  let k := s.ctx c x
  if !atBoundary s c x then none
  else match k.deferred with
    | [] => none
    | r :: rest =>
      let s := s.modCtx c x fun k => { k with deferred := rest }
      let q := { r.cause with info3 := k.regs.ltime }
      match q.line, k.seg with
      | some l, some g =>
        if g.chain.contains l then some (takeCause s c x 1 { q with info2 := 1 } r.at_) else some (rewindNow s c x (some l) false)
      | _, _ => some (takeCause s c x 1 q r.at_)
/-- DEFERRED_CAUSE_TAKEN. -/
def execDeferredCauseTaken (core ctx : Nat) (s : State) : Out := event s (takeDeferred s core ctx)

/-! ### Context commands (R265) -/

/-- RESUME, STEP, SUSPEND and ABORT as they take effect. -/
def execResume (core ctx : Nat) (s : State) : Out := .next (resumeCtx s core ctx false)
def execStep (core ctx : Nat) (s : State) : Out := .next (resumeCtx s core ctx true)
def execSuspend (core ctx : Nat) (s : State) : Out := .next (suspendCmd s core ctx)
def execAbort (core ctx : Nat) (s : State) : Out := .next (abortCmd s core ctx)

/-! ### Register writes (R5, R66, R258, R259, R346) -/

/-- TQCTL_WRITE, where R259 admits the value. -/
def execTqctlWrite (part val : Nat) (s : State) : Out :=
  event s (if tqctlBad (s.part part) val then none else some (s.modPart part fun q => writeTqctl q val))
/-- TQCONS_WRITE, where R258 admits the value. -/
def execTqconsWrite (part val : Nat) (s : State) : Out :=
  event s (if tqconsBad (s.part part) val then none else some (s.modPart part fun q => { q with tqcons := val % 2 ^ 64 }))
/-- A context whose ENERGY, GEAR.REQ and breakpoints a write may reach: a suspended one, or the one that issues at a privileged
level (R258, R364). -/
def openTo (s : State) (c x : Nat) : Bool :=
  let k := s.ctx c x
  k.status == .suspended || (k.status == .ready && (s.core c).active == some x && decide (k.level > 0))
/-- ENERGYW_WRITE. -/
def execEnergywWrite (core ctx val : Nat) (s : State) : Out :=
  event s (if openTo s core ctx then some (s.modCtx core ctx fun k => { k with energy := val % 2 ^ 48, ensat := false }) else none)
/-- GEARW_WRITE. -/
def execGearwWrite (core ctx val : Nat) (s : State) : Out :=
  event s (if openTo s core ctx then some (s.modCtx core ctx fun k => { k with gearReq := val % 4 }) else none)
/-- FMTCTL_WRITE: a reserved rounding mode is refused (R66). -/
def execFmtctlWrite (core ctx val : Nat) (s : State) : Out :=
  event s (if val % 8 ≥ 4 then none else some (s.modRegs core ctx fun r => { r with fmtctl := fmtMask val }))
/-- Selectors of registers that a write reaches and that have no row of their own (R139, R258). -/
def plainSel (sel : Nat) : Bool := [0x0C, 0x41, 0x42, 0x43, 0x44, 0x45, 0x49, 0x4A, 0x4B, 0x4C, 0x4F].contains sel
/-- REGISTER_WRITE: a register of a context or its partition by selector, or, from 0x1000 on, a mailbox register by its offset:
FACC0 to FACC3, of which the bits that R348 does not list stay 0, and EVBASE, of which a write drops bits 11:0 (R346; DESIGN CHOICE, log
entry 73). -/
def execRegisterWrite (core ctx sel idx val : Nat) (s : State) : Out :=
  event s (
    if plainSel sel then
      let t := selTarget (s.ctx core ctx).ctxsel
      if sel = 0x4F ∧ t ≠ (core, ctx) ∧ openTo s t.1 t.2 = false then none else some (writeSpr s core ctx sel idx val t.1 t.2)
    else if 0x1028 ≤ sel ∧ sel ≤ 0x1040 ∧ sel % 8 = 0 then
      some { s with host := { s.host with facc := s.host.facc.set ((sel - 0x1028) / 8) (if sel = 0x1028 then val % 2 ^ 6 else 0) } }
    else if sel = 0x1088 then some { s with host := { s.host with evbase := val % 2 ^ 64 / 4096 * 4096 } }
    else none)

/-! ### Errors in storage (R324 to R328) -/

/-- The name under which a segment chain remembers a register or an internal array. -/
def regLine (kind addr : Nat) : Nat := 2 ^ 120 + kind * 2 ^ 32 + addr
/-- A parity or double-bit error consumed by the bundle at which the context stands. -/
def consumeReg (s : State) (c x kind addr : Nat) : State :=
  let k := s.ctx c x
  let at_ : Where := ⟨k.regs.ltime, k.regs.pc, 15, k.regs.rep⟩
  let q : Cause := { code := 0x37, info0 := addr, info1 := kind }
  match k.seg with
  | some g =>
    if g.chain.contains (regLine kind addr) then takeCause s c x 0 { q with info2 := 1 } at_
    else rewindNow s c x (some (regLine kind addr)) false
  | none => takeCause s c x 0 q at_
/-- The first beat of a queue with its poison flag set. -/
def poisonBeat (k : Ctx) (ch : Nat) : Ctx :=
  match k.queues.get [] ch with
  | b :: rest => { k with queues := k.queues.set ch ({ b with poison := true } :: rest) }
  | [] => k
/-- POISON_CONSUMPTION, by the storage codes of R328: an uncorrectable error is found.  In memory (0 to 5, 10, 11) it marks the
line of a global address, and every read of the line consumes it; in a register or a matrix array (6 to 8) the context's next
bundle consumes it; on a link (9) it flags the received beat at the head of a channel's queue (DESIGN CHOICE, log entry 29). -/
def execPoisonConsumption (core ctx kind addr : Nat) (s : State) : Out :=
  event s (
    if kind = 9 then some (s.modCtx core ctx fun k => poisonBeat k addr)
    else if 6 ≤ kind ∧ kind ≤ 8 then (if issuer s core = some ctx then some (consumeReg s core ctx kind addr) else none)
    else if kind > 11 ∨ s.poisoned (addr / 64) then none
    else some { s with poison := s.poison ++ [addr / 64] })
/-- PATROL_SCRUB: a corrected error in the core's own storage is counted. -/
def execPatrolScrub (core : Nat) (s : State) : Out :=
  .next (s.modCore core fun k => { k with ras := k.ras.set 0 (satCount (k.ras.get 0 0)) })

end Sys2Proof.Machine
end

