-- ==== Sys2Proof/Machine/Images.lean ====
section
/-!
DEFINITION. Context and core images (R266 to R273): their sizes and headers, the end of `CTXSV`, the end of `CTXLD`.
-/

namespace Sys2Proof.Machine

open Sys2Proof

/-! ### Sizes and headers (R267, R268) -/

/-- Length of a context image by what is live; a header alone for an empty context.  Every result in flight is one captured result (R268;
DESIGN CHOICE, log entry 90). -/
def ctxLen (k : Ctx) : Nat :=
  if k.status = .empty then 64
  else
    let live := k.regs.xfers.filter fun y => !y.done && !y.dead
    let early := (live.map fun y => (y.grans.filter fun g => !g.written && g.left == 0).length).sum
    let beats := (k.queues.map fun q => q.2.length).sum
    28672 + 512 * Nat.min k.regs.inflight.length 64 + (if live.isEmpty then 0 else 4096 + 64 * early) +
    (match k.seg with | some g => 61440 + 64 * g.undo.length | none => 0) + 64 * beats
/-- Bytes of the core storage part. -/
def storageLen : Nat := 4448 * 1024
/-- Offsets of the four context images inside a core image. -/
def subOffsets (ks : List Ctx) : List Nat :=
  (ks.foldl (fun (acc : List Nat × Nat) k => (acc.1 ++ [acc.2], acc.2 + roundUp (ctxLen k) 4096)) ([], 4096)).1
def coreLen (ks : List Ctx) : Nat := 4096 + (ks.map fun k => roundUp (ctxLen k) 4096).sum + storageLen
/-- FSIG of this module: a signature of its feature words and revision (DESIGN CHOICE, log entry 14). -/
def fsigOf (s : State) : Nat := Config.fsig (s.host.foffer.get 0 0) % 2 ^ 64

/-- The fields of a header (R267). -/
structure Header where
  ver : Nat
  kind : Nat
  state : Nat
  ctxs : Nat
  len : Nat
  core : Nat
  gear : Nat
  flags : Nat
  ltime : Nat
  pc : Nat
  rep : Nat
  dly : Nat
  energy : Nat
  fsig : Nat
  save : Nat
  load : Nat
  deriving DecidableEq, Repr
def Header.bytes (h : Header) : List Byte :=
  toBytes 4 h.ver ++ toBytes 1 h.kind ++ toBytes 1 h.state ++ toBytes 2 h.ctxs ++ toBytes 4 h.len ++ toBytes 2 h.core ++
  toBytes 1 h.gear ++ toBytes 1 h.flags ++ toBytes 8 h.ltime ++ toBytes 4 h.pc ++ toBytes 1 h.rep ++ toBytes 1 h.dly ++
  toBytes 2 0 ++ toBytes 8 h.energy ++ toBytes 8 h.fsig ++ toBytes 8 h.save ++ toBytes 8 h.load
def headerOf (b : List Byte) : Header :=
  let x := ofBytes b
  { ver := bits x 0 32, kind := bits x 32 8, state := bits x 40 8, ctxs := bits x 48 16, len := bits x 64 32,
    core := bits x 96 16, gear := bits x 112 8, flags := bits x 120 8, ltime := bits x 128 64, pc := bits x 192 32,
    rep := bits x 224 8, dly := bits x 232 8, energy := bits x 256 64, fsig := bits x 320 64, save := bits x 384 64,
    load := bits x 448 64 }
/-- A context's header, with the state it was stopped in. -/
def ctxHeader (s : State) (k : Ctx) (core x was len save : Nat) : Header :=
  { ver := 1, kind := 0, state := was, ctxs := x, len := len, core := core % 512, gear := k.gearReq % 4,
    flags := k.ensat.toNat + 2 * k.seg.isSome.toNat + 4 * (!k.deferred.isEmpty).toNat + 8 * k.stepPending.toNat,
    ltime := k.regs.ltime, pc := k.regs.pc, rep := k.regs.rep, dly := (k.regs.pend.map (·.left)).getD 0,
    energy := k.energy, fsig := fsigOf s, save := save, load := 0 }
/-- A core image's header. -/
def coreHeader (s : State) (ks : List Ctx) (core len save : Nat) : Header :=
  let mask := ((List.range 4).map fun x => if (ks.getD x Ctx.reset).status = .empty then 0 else 2 ^ x).sum
  { ver := 1, kind := 1, state := 0, ctxs := mask, len := len, core := core % 512, gear := 0, flags := 0, ltime := 0, pc := 0,
    rep := 0, dly := 0, energy := 0, fsig := fsigOf s, save := save, load := 0 }

/-! ### Image memory -/

/-- How an image's bytes can be reached, with the state once the accesses are checked and counted. -/
inductive ImgReach where
  | wait
  | fail (s : State) (q : Cause)
  | ok (s : State)
  deriving DecidableEq, Repr
/-- The lines of one page's part of an image: each is an access of the copy engine at its endpoint (R96, R102, R285, R311). -/
def imgLines (a : Async) (k : AccKind) (x : Xl) (va : Nat) : Nat → State → Except Cause State
  | 0, s => .ok s
  | n + 1, s =>
    match imgLines a k x va n s with
    | .error q => .error q
    | .ok s =>
      match endpoint s a { x with ga := x.ga + 64 * n } (va + 64 * n) (k == .write) false with
      | .error q => .error q
      | .ok s => .ok ((counted s a (va + 64 * n) x).exchange x.ga)
/-- Every page of an image translates for an access, and no line of it is refused. -/
def imgReach (a : Async) (k : AccKind) : List (Nat × Nat) → State → ImgReach
  | [], s => .ok s
  | (va, n) :: rest, s =>
    match reach s a k va with
    | .wait => .wait
    | .bad f => .fail (noteMiss s a k va f) (xfailCause f va)
    | .gone => .fail s (goneCause va)
    | .ok x =>
      match imgLines a k x va (n / 64) s with
      | .error q => .fail s q
      | .ok s => imgReach a k rest s
/-- Where a line of an image that can be reached stands. -/
def imgXl (s : State) (a : Async) (k : AccKind) (va : Nat) : Option Xl :=
  match xlateP s a.part a.core a.level k va with
  | .ok x => some x
  | .error _ => none
/-- Bytes written from a virtual address, a line at a time. -/
def imgWrite (a : Async) : State → Nat → Nat → List Byte → State
  | s, 0, _, _ => s
  | s, n + 1, va, bs =>
    match imgXl s a .write va with
    | some x => imgWrite a (writeAt s x (cells x.ga (bs.take 64)) none) n (va + 64) (bs.drop 64)
    | none => s
/-- The lines of an image as memory holds them. -/
def imgRead (s : State) (a : Async) (va : Nat) : Nat → List (List Byte)
  | 0 => []
  | n + 1 =>
    (match imgXl s a .read va with | some x => readBytes s.mem 64 x.ga | none => List.replicate 64 0) :: imgRead s a (va + 64) n
/-- The header at an address. -/
def imgHeader (s : State) (a : Async) (va : Nat) : Header := headerOf ((imgRead s a va 1).headD [])
/-- A line of the image is poisoned. -/
def imgPoisoned (s : State) (a : Async) (va : Nat) : Nat → Bool
  | 0 => false
  | n + 1 => (imgXl s a .read va).any (fun x => s.poisoned (x.ga / 64)) || imgPoisoned s a (va + 64) n
/-- A body as lines: the counter value of its save in the first dword, then free bytes (DESIGN CHOICE, log entry 14). -/
def bodyLines (tick len : Nat) : List (List Byte) :=
  (List.range (len / 64 - 1)).map fun j =>
    (if j = 0 then toBytes 8 tick else []) ++
      ((List.range 64).map fun o => Config.imageByte tick (64 * j + o)).drop (if j = 0 then 8 else 0)

/-! ### The end of CTXSV (R269, R270) -/

/-- What a save waits for has been delivered: transfers to the scratchpad or the skid buffer, accesses away from the core. -/
def quiet (s : State) (c x : Nat) : Bool :=
  ((s.ctx c x).regs.xfers.all fun y => y.dead || y.grans.all fun g => g.written || g.left == 0) &&
  (s.mine c x).all fun a => match a.kind with
    | .store _ => false | .stamp .. => false | .ownStamp .. => false | .atom .. => false | .monRead .. => false
    | .shalloc .. => false | .shfree .. => false | _ => true
/-- A context as an image keeps it: with the state it was stopped in, a frozen one to test its dependence again; one that its `IDLE`
holds goes on waiting (R269, R274). -/
def imageCtx (k : Ctx) (was : Nat) : Ctx :=
  { k with
    status := if k.status = .empty then .empty else if was = 3 then .suspended
      else if (k.dep.filter Dep.isIdle).isSome then .frozen else .ready
    busy := false, held := none, resident := false }
/-- The saved context becomes empty, its part out (R269, R307). -/
def vacate (s : State) (c x : Nat) : State :=
  let k := s.ctx c x
  let s := s.modCore c fun q => { q with claims := q.claims.filter fun e => e.2.owner != x }
  let s := s.modCtx c x fun k =>
    { Ctx.reset with energy := k.energy, ensat := k.ensat, gearReq := k.gearReq, level := k.level, held := k.held, bkpt := k.bkpt }
  let s := forget s c x
  { s with tasks := s.tasks.map fun t =>
      if t.id = k.info.task then
        { t with parts := t.parts.map fun p => if p.core = c ∧ p.ctx = x ∧ p.state = 1 then { p with state := 2 } else p }
      else t }
def clearBusyBits (s : State) (c : Nat) (xs : List Nat) : State := xs.foldl (setBusy false c) s

/-- The image of contexts `xs` of a core. -/
def imageOf (s : State) (core : Bool) (part c x : Nat) (was : List Nat) (len : Nat) : Image :=
  let k := s.core c
  let xs := imgContexts core x
  { part := part, core := c, ctx := if core then none else some x,
    ctxs := xs.map fun y => (y, imageCtx (s.ctx c y) (was.getD y 0)),
    acc := if core then k.acc else [], os := if core then k.os else [], lt := if core then k.lt else [],
    bars := if core then k.bars else [],
    scratch := if core then s.mem.filter fun e => inCore c e.1 else [],
    claims := k.claims.filter fun e => xs.contains e.2.owner,
    poison := if core then s.poison.filter fun l => inCore c (64 * l) else [],
    len := len, tick := s.tick }
/-- Headers of the context images inside a core image. -/
def subHeaders (a : Async) (tc va : Nat) (was : List Nat) (ks : List Ctx) : State → List Nat → State
  | s, [] => s
  | s, x :: rest =>
    let k := ks.getD x Ctx.reset
    let save := if k.status = .empty then 1 else 0
    let s := imgWrite a s 1 (va + (subOffsets ks).getD x 0) (ctxHeader s k tc x (was.getD x 0) (ctxLen k) save).bytes
    subHeaders a tc va was ks s rest
/-- The energy of an image's transfers goes to the issuer's context, in the copy class (R273). -/
def chargeImage (s : State) (a : Async) (len : Nat) : State :=
  if s.holder a then s.charge a.core a.ctx (copyCharge len) else s
/-- The image is written, the contexts become empty, the completion word takes effect.  An image in whose memory an error is met
keeps no body that a load would accept (DESIGN CHOICE, log entry 14). -/
def saveDone (s : State) (a : Async) (core : Bool) (tc tx va : Nat) (was : List Nat) (cw : CWord) : State :=
  let xs := imgContexts core tx
  let ks := [0, 1, 2, 3].map (s.ctx tc)
  let k := s.ctx tc tx
  let len := if core then coreLen ks else ctxLen k
  let one := !core && k.status == .empty
  let err := !one && Config.saveError s.tick
  let im := imageOf s core a.part tc tx was len
  let body := List.replicate 64 0 ++ (bodyLines s.tick len).flatten
  let s := if one then s else { imgWrite a s (len / 64) va body with tick := s.tick + 1 }
  let s := if core then subHeaders a tc va was ks s [0, 1, 2, 3] else s
  let stat := if one then 1 else if err then 3 else 0
  let head := if core then coreHeader s ks tc len stat else ctxHeader s k tc tx (was.getD tx 0) len stat
  let s := imgWrite a s 1 va head.bytes
  let s := if one || err then s else { s with images := im :: s.images }
  let s := chargeImage s a len
  let s := xs.foldl (fun s x => if (s.ctx tc x).status = .empty then s else vacate s tc x) (clearBusyBits s tc xs)
  finish (pickNext s tc) a cw
/-- A save or load whose image does not translate (R281): the issuer's deferred cause; the targets keep their state. -/
def imgFail (s : State) (a : Async) (inside : Bool) (tc : Nat) (xs : List Nat) (q : Cause) : State :=
  failOp (if inside then clearBusyBits s tc xs else s) a q
/-- SAVE_COMPLETE. -/
def execSaveComplete (id : Nat) (s : State) : Out :=
  onOp s id fun a => match a.kind with
    | .save core tc tx va was cw =>
      let xs := imgContexts core tx
      let inside := (s.part a.part).cfg.cores.contains tc
      let ks := [0, 1, 2, 3].map (s.ctx tc)
      let len := if !inside then 64 else if core then coreLen ks else ctxLen (s.ctx tc tx)
      if inside && !(xs.all (quiet s tc)) then none
      else match imgReach a .write (pageCuts va len) s with
        | .wait => none
        | .fail s q => some (imgFail s a inside tc xs q)
        | .ok s =>
          if inside then some (saveDone s a core tc tx va was cw)
          else
            let h : Header := { coreHeader s [] tc 64 2 with kind := core.toNat, ctxs := if core then 0 else tx }
            some (finish (chargeImage (imgWrite a s 1 va h.bytes) a 64) a cw)
    | _ => none
/-- SAVE_ABANDON: what the save waits for has not been delivered within its limit; the stopped contexts stay suspended. -/
def execSaveAbandon (id : Nat) (s : State) : Out :=
  onOp s id fun a => match a.kind with
    | .save core tc tx va was cw =>
      let xs := imgContexts core tx
      let inside := (s.part a.part).cfg.cores.contains tc
      if !inside || xs.all (quiet s tc) then none
      else match imgReach a .write [(va, 64)] s with
        | .wait => none
        | .fail s q => some (imgFail s a inside tc xs q)
        | .ok s =>
          let ks := [0, 1, 2, 3].map (s.ctx tc)
          let h := if core then coreHeader s ks tc 64 4 else ctxHeader s (s.ctx tc tx) tc tx (was.getD tx 0) 64 4
          some (finish (chargeImage (clearBusyBits (imgWrite a s 1 va h.bytes) tc xs) a 64) a cw)
    | _ => none

/-! ### The end of CTXLD (R269, R271, R273) -/

/-- The part of a saved context is out (R269): not resident in any context and not ended; a context that holds no launched
part is checked for none. -/
def imgPartOut (s : State) (c x : Nat) (k : Ctx) : Bool :=
  k.info.task == 0 ||
  s.tasks.any fun t => t.id == k.info.task && t.parts.any fun p => p.core == c && p.ctx == x && p.state == 2
/-- The lines that a load compares with a body: all but the header, and of a core image the headers of its context images, which
the check does not cover (R269; DESIGN CHOICE, log entry 14). -/
def checkedLines (im : Image) (lines : List (List Byte)) : List (List Byte) :=
  let offs := if im.ctx.isSome then [] else subOffsets ([0, 1, 2, 3].map (im.ctxs.get Ctx.reset))
  ((lines.zipIdx 1).filter fun e => !offs.contains (64 * e.2)).map (·.1)
/-- The saved image whose body stands at an address. -/
def findImage (s : State) (a : Async) (va len : Nat) : Option Image :=
  let body := (imgRead s a va (len / 64)).drop 1
  s.images.find? fun im => im.part == a.part && im.len == len &&
    checkedLines im body == checkedLines im (bodyLines im.tick len)
/-- LOADSTAT of an image against a target: the checks in the order 6, 5, 1, 2, 4, 3, 7 (DEDUCED, log entry 30). -/
def loadStat (s : State) (a : Async) (core : Bool) (tc tx va : Nat) : Nat × Option Image :=
  let h := imgHeader s a va
  let xs := imgContexts core tx
  if !(s.part a.part).cfg.cores.contains tc then (6, none)
  else if h.kind ≠ core.toNat then (5, none)
  else if xs.any (fun x => (s.ctx tc x).status != .empty) then (1, none)
  else if h.core ≠ tc % 512 ∨ (core = false ∧ h.ctxs ≠ tx) then (2, none)
  else if h.fsig ≠ fsigOf s then (4, none)
  else if h.ver ≠ 1 ∨ imgPoisoned s a va (h.len / 64) then (3, none)
  else match findImage s a va h.len with
    | none => (3, none)
    | some im =>
      if im.core ≠ tc ∨ im.ctx ≠ (if core then none else some tx) then (3, none)
      else if im.ctxs.all (fun e => e.2.status == .empty || imgPartOut s tc e.1 e.2) then (0, some im) else (7, none)
/-- A saved context with the header fields that the supervisor may change; its resume point is then the header's.  A DLY for no pending
transfer says nothing, and a DLY of 0 drops one (R269; DESIGN CHOICE, log entry 90). -/
def withHeader (k : Ctx) (h : Header) : Ctx :=
  { k with
    stepAt := (h.pc, h.rep % 16), gearReq := h.gear % 4, ensat := bit h.flags 0, energy := h.energy % 2 ^ 48,
    regs := { k.regs with
      pc := h.pc, rep := h.rep % 16
      pend := if h.dly % 4 = 0 && !k.ends then none else k.regs.pend.map fun p => { p with left := h.dly % 4 } } }
/-- One context restored; one saved suspended stays suspended until a RESUME, also in the routine of R362 (R269; DEDUCED, log
entry 70). -/
def restoreCtx (s : State) (a : Async) (c x va : Nat) (im : Image) : State :=
  let k := im.ctxs.get Ctx.reset x
  if k.status = .empty then s
  else
    let now := s.ctx c x
    let k' := withHeader k (imgHeader s a va)
    let s := s.setCtx c x { k' with status := .suspended, held := now.held, level := k.level, busy := false }
    let back := im.claims.filter fun e => e.2.owner == x && ((s.core c).claims.find e.1).isNone
    let s := s.modCore c fun q => { q with claims := back.foldl (fun m e => m.set e.1 e.2) q.claims }
    let s := { s with tasks := s.tasks.map fun t =>
      if t.id = k.info.task then
        { t with parts := t.parts.map fun p => if p.core = c ∧ p.ctx = x ∧ p.state = 2 then { p with state := 1 } else p }
      else t }
    match k.status with
    | .suspended => s
    | .frozen => s.modCtx c x fun k => { k with status := .frozen, resident := true }
    | _ => makeReady s c x
/-- The core storage restored. -/
def restoreStorage (s : State) (c : Nat) (im : Image) : State :=
  let s := s.modCore c fun q => { q with acc := im.acc, os := im.os, lt := im.lt, bars := im.bars }
  { s with
    mem := putBytes (s.mem.filter fun e => !inCore c e.1) im.scratch
    poison := (s.poison.filter fun l => !inCore c (64 * l)) ++ im.poison }
def loadDone (s : State) (a : Async) (core : Bool) (tc tx va : Nat) (im : Image) : State :=
  let s := if core then restoreStorage s tc im else s
  let offs := if core then subOffsets ([0, 1, 2, 3].map (im.ctxs.get Ctx.reset)) else [0, 0, 0, 0]
  (imgContexts core tx).foldl (fun s x => restoreCtx s a tc x (va + offs.getD x 0) im) s
/-- LOAD_COMPLETE: not while a checkpoint or an emergency save holds the cores (R343, R353).  The transfers are charged whether or not the
checks pass: the header's alone for a target outside the partition, otherwise the image's (R273; DEDUCED, log entry 30). -/
def execLoadComplete (id : Nat) (s : State) : Out :=
  onOp s id fun a => match a.kind with
    | .load core tc tx va cw =>
      let xs := imgContexts core tx
      let inside := (s.part a.part).cfg.cores.contains tc
      if tc < 512 && startsHeld s then none else
      match imgReach a .read [(va, 64)] s with
      | .wait => none
      | .fail s q => some (imgFail s a inside tc xs q)
      | .ok s1 =>
        match reach s1 a .write va with
        | .wait => none
        | .bad f => some (imgFail (noteMiss s1 a .write va f) a inside tc xs (xfailCause f va))
        | .gone => some (imgFail s1 a inside tc xs (goneCause va))
        | .ok _ =>
          match imgReach a .read (pageCuts (va + 64) ((imgHeader s a va).len - 64)) s1 with
          | .wait => none
          | .fail s q => some (imgFail s a inside tc xs q)
          | .ok s =>
            let r := loadStat s a core tc tx va
            let s := if inside then clearBusyBits s tc xs else s
            let len := if r.1 = 6 then 64 else (imgHeader s a va).len
            let s := match r.2 with | some im => loadDone s a core tc tx va im | none => s
            some (finish (sideWrite (chargeImage s a len) a (va + 0x38) (toBytes 8 r.1)) a cw)
    | _ => none

end Sys2Proof.Machine
end

