-- ==== Sys2Proof/Machine/Launch.lean ====
section
/-!
DEFINITION. Launches (R9, R36, R37, R40, R41, R84, R88, R110, R125, R300 to R309): the descriptor, the kernel header, placement,
the dispatch trace, the start and the end of tasks.
-/

namespace Sys2Proof.Machine

open Sys2Proof

/-! ### Reading memory at the intake -/

/-- The issuer of a launch, whose translation the intake uses and to whom its failures are reported (R301). -/
def IntakeE.op (e : IntakeE) (s : State) : Async :=
  { mkOp s e.core e.ctx ⟨e.lt, e.pc, 0, 0⟩ [] (.walk 0) with task := e.task, seq := e.seq, level := e.level }
/-- What the intake reads: none while a stack or a port on the way takes no request, else the state that the read leaves, and the
bytes where it succeeds. -/
abbrev Fetched (α : Type) := Option (State × Option α)
/-- Lines of a global range. -/
def rangeLines (ga n : Nat) : List Nat := seqFrom (ga / 64) ((ga + n - 1) / 64 + 1 - ga / 64)
/-- What the issuer of a launch is told of a page that fails: a lost allocation (R299). -/
def tellLost (s : State) (a : Async) (f : XFail) (va : Nat) : State :=
  match f with | .lost .. => s.report a (xfailCause f va) | _ => s
/-- Bytes of a range, page by page, from a peer in requests of its largest payload (R310, R315); none where a page fails or a line is
poisoned (R281; DEDUCED, log entry 31), or lies in a busy range or out of reach, which the issuer is told (R96, R299, R313). -/
def spanCuts (a : Async) (k : AccKind) : List (Nat × Nat) → State → Fetched (List Byte)
  | [], s => some (s, some [])
  | (va, n) :: rest, s =>
    match reach s a k va with
    | .wait => none
    | .bad f => some (tellLost (noteMiss s a k va f) a f va, none)
    | .gone => some (s.report a (goneCause va), none)
    | .ok x =>
      if (rangeLines x.ga n).any (nmBusy s) then some (s.report a (raceCause ⟨5, 0, 0⟩ va 0), none)
      else if (rangeLines x.ga n).any s.poisoned then some (s.exchangeBytes x.ga n, none)
      else match spanCuts a k rest ((counted s a va x).exchangeBytes x.ga n) with
        | some (t, some l) => some (t, some (readBytes s.mem n x.ga ++ l))
        | r => r
def spanBytes (a : Async) (k : AccKind) (va n : Nat) (s : State) : Fetched (List Byte) :=
  if n = 0 then some (s, some []) else spanCuts a k (pageCuts va n) s
/-- Whether an address translates for an access that is not made now. -/
def translates (a : Async) (k : AccKind) (va : Nat) (s : State) : Fetched Unit :=
  match reach s a k va with
  | .wait => none
  | .bad f => some (tellLost (noteFail s a.core f) a f va, none)
  | .gone => some (s.report a (goneCause va), none)
  | .ok _ => some (s, some ())
/-- Numbers of `w` bytes from a byte list. -/
def words (w : Nat) : Nat → List Byte → List Nat
  | 0, _ => []
  | n + 1, bs => ofBytes (bs.take w) :: words w n (bs.drop w)

/-! ### The descriptor (R300, R301) -/

def descOf (b : List Byte) : Desc :=
  let x := ofBytes b
  { khdr := bits x 0 64, args := bits x 64 64, chtab := bits x 128 64, chn := bits x 192 16, nc := bits x 208 16,
    nd := bits x 224 8, gear := bits x 232 8, flags := bits x 240 16, group := bits x 256 32, rsv := bits x 288 32,
    done := bits x 320 64, staddr := bits x 384 64, cmask := bits x 512 512 }
/-- A DONE word that breaks R168. -/
def Desc.doneBad (d : Desc) : Bool :=
  bits d.done 0 13 != 0 || bits d.done 13 3 != 0 || decide (bits d.done 16 3 > 5) || (bit d.done 19 && d.staddr % 8 != 0)
/-- REASON 3. -/
def Desc.bad (d : Desc) : Bool :=
  d.chtab % 8 != 0 || (d.chtab == 0 && d.chn != 0) || decide (d.chn > 1024) || decide (d.nc < 1 ∨ d.nc > 128) ||
  decide (d.nd < 1 ∨ d.nd > 4) || decide (d.gear > 3) || decide (d.flags > 1) || d.rsv != 0 ||
  (d.flags == 0 && d.cmask != 0) || d.doneBad
/-- The completion word of a launch: the stamp's value is L + 1. -/
def Desc.cword (d : Desc) (lt : Nat) : CWord :=
  { phase := bits d.done 32 32, bar := bits d.done 21 11, ba := bit d.done 20, st := bit d.done 19, scope := bits d.done 16 3,
    tset := 0, saddr := d.staddr, val := (lt + 1) % 2 ^ 64, ar := none, sr := none, wait := [] }

/-! ### The kernel header (R41, R84, R110, R125) -/

/-- A loop table that R41 refuses. -/
def ltabBad (l : Nat) : Bool :=
  let ks := [0, 1, 2, 3].map fun j => bits l (2 * j) 2
  ks.contains 3 || decide ((ks.filter (· == 1)).length > 1) || decide ((ks.filter (· == 2)).length > 1)
/-- A dictionary entry that R110 refuses. -/
def dictBad (b : List Byte) : Bool :=
  match decodeBundle (words 4 24 b) with
  | .ok (.bundleIssue 0 false false false _, rest) => rest.any (· != 0)
  | _ => true
def dictsBad : Nat → List Byte → Bool
  | 0, _ => false
  | n + 1, b => dictBad (b.take 96) || dictsBad n (b.drop 96)
/-- Barrier initialisers that R125 refuses. -/
def barsBad (l : List Nat) : Bool :=
  (l.any fun w => bits w 16 16 == 0 || bits w 11 5 != 0) ||
  decide ((l.map fun w => bits w 0 11).eraseDups.length < l.length)
/-- The kernel that a header describes, or the REASON that refuses it; none while memory takes no request. -/
def readKernel (a : Async) (va : Nat) (head : List Byte) (s : State) : Option (State × Except Nat Kernel) :=
  let x := ofBytes head
  let textSz := bits x 32 32
  let textOff := bits x 64 64
  let dictOff := bits x 128 64
  let barOff := bits x 192 64
  let dictN := bits x 256 16
  let barN := bits x 272 16
  let ltab := bits x 288 8
  let zmap := bits x 320 192
  if bits x 0 32 ≠ 1 ∨ textSz = 0 ∨ textSz % 4 ≠ 0 ∨ textOff % 4 ≠ 0 ∨ dictOff % 4 ≠ 0 ∨ barOff % 4 ≠ 0 ∨ dictN > 256 ∨
      barN > 2048 ∨ ltabBad ltab ∨ bits x 296 8 > 3 ∨ bits x 304 8 = 0 ∨ bits x 304 8 > 64 ∨ bits x 312 8 ≠ 0 ∨
      (List.range 48).any (fun z => bit zmap (4 * z + 3)) ∨ bits x 768 256 ≠ 0 then some (s, .error 1)
  else do
    let (s, db) ← spanBytes a .fetch ((va + dictOff) % 2 ^ 64) (96 * dictN) s
    let (s, bb) ← spanBytes a .fetch ((va + barOff) % 2 ^ 64) (4 * barN) s
    match db, bb with
    | some db, some bb =>
      let bars := words 4 barN bb
      if dictsBad dictN db || barsBad bars then some (s, .error 1)
      else some (s, .ok
        { textVa := (va + textOff) % 2 ^ 64, textSz := textSz, dictVa := (va + dictOff) % 2 ^ 64, dictN := dictN, bars := bars,
          ltab := ltab, sgear := bits x 296 8, slotg := bits x 304 8, zmap := zmap,
          feats := (List.range 4).map fun j => bits x (512 + 64 * j) 64 })
    | _, _ => some (s, .error 9)
/-- Required features that are not all set (R9). -/
def featsBad (s : State) (p : Nat) (feats : List Nat) : Bool :=
  let have_ := fun j => if j = 0 then s.feat0 p else 0
  (List.range 4).any fun j => (feats.getD j 0) &&& have_ j != feats.getD j 0

/-! ### The channel table (R302) -/

def chDir (e : Nat) : Nat := bits e 63 1
def chPeer (e : Nat) : Nat := bits e 32 12
/-- An entry binds the sending end here, or the receiving end. -/
def sendsHere (e : Nat) : Bool := chPeer e == 0 || chDir e == 0
def recvsHere (e : Nat) : Bool := chPeer e == 0 || chDir e == 1
def chSrc (e : Nat) : Nat × Nat := (bits e 0 12, bits e 12 4)
def chDst (e : Nat) : Nat × Nat := (bits e 16 12, bits e 28 4)
def dupPair (l : List (Nat × Nat)) : Bool := decide (l.eraseDups.length < l.length)
/-- REASON 6. -/
def chansBad (cfg : PartCfg) (n : Nat) (l : List Nat) : Bool :=
  (l.any fun e => bits e 44 19 != 0 || (chPeer e == 0 && chDir e == 1) || (chPeer e != 0 && (cfg.dest 1 (chPeer e)).isNone) ||
    (sendsHere e && decide ((chSrc e).1 ≥ n)) || (recvsHere e && decide ((chDst e).1 ≥ n))) ||
  dupPair ((l.filter sendsHere).map chSrc) || dupPair ((l.filter recvsHere).map chDst)

/-! ### Placement (R40, R305, R309) -/

/-- Parts waiting and running on a core; one that is out in an image counts as running (R307). -/
def loadOf (s : State) (c : Nat) : Nat := (s.tasks.map fun t => (t.parts.filter fun p => p.core == c && decide (p.state ≤ 2)).length).sum
/-- The `n` keys of least weight, the lower key first among equals; the keys are given in rising order. -/
def leastBy (w : Nat → Nat) : Nat → List Nat → List Nat
  | 0, _ => []
  | n + 1, l =>
    match l with
    | [] => []
    | x :: rest =>
      let m := rest.foldl (fun a b => if w b < w a then b else a) x
      m :: leastBy w n (l.filter (· != m))
/-- Numbers below 512 that a list holds, in rising order. -/
def sortCores (l : List Nat) : List Nat := (List.range 512).filter l.contains
/-- Exactly `nc` cores on each of exactly `nd` dies. -/
def shapeOk (nc nd : Nat) (l : List Nat) : Bool :=
  let per := ([0, 1, 2, 3].map fun d => (l.filter fun c => dieOf c == d).length).filter (· != 0)
  per.length == nd && per.all (· == nc)
/-- The cores the intake chooses itself. -/
def chooseCores (s : State) (cfg : PartCfg) (nc nd : Nat) : Option (List Nat) :=
  let on := fun d => (sortCores cfg.cores).filter fun c => dieOf c == d
  let dies := [0, 1, 2, 3].filter fun d => decide ((on d).length ≥ nc)
  if dies.length < nd then none
  else
    let picked := leastBy (fun d => ((on d).map (loadOf s)).sum) nd dies
    some (sortCores (picked.flatMap fun d => leastBy (loadOf s) nc (on d)))

/-- The PLACE record with `n` PLACE records before it: NC, ND, PRI, KHDR and the core mask; it lies whole in the bytes to bind. -/
def placeAt (who : Async) (p : Nat) : Nat → State → Nat → Nat → State × Option (Nat × Nat × Nat × Nat × Nat)
  | 0, s, _, _ => (s, none)
  | f + 1, s, pos, n =>
    let t := (s.part p).trace
    let c := (s.part p).cfg.control
    let u := readVas who c 1 (t.base + pos) 3 s
    let w0 := packWords (u.2.take 1)
    match recordAt w0 pos t.used with
    | some (2, len) =>
      if n = 0 then
        let m := readVas who c 1 (t.base + pos + 32) 8 u.1
        (m.1, some (bits w0 16 16, bits w0 32 8, bits w0 8 8, packWords (u.2.drop 2), packWords m.2))
      else placeAt who p f u.1 (pos + len) (n - 1)
    | some (_, len) => placeAt who p f u.1 (pos + len) n
    | none => (u.1, none)
/-- A bound placement: the cores, or REASON 7 or 8. -/
def boundCores (who : Async) (s : State) (p : Nat) (d : Desc) (pri : Nat) : State × Except Nat (List Nat) :=
  let q := s.part p
  let t := q.trace
  let n := (q.nextSeq + 2 ^ 32 - t.seq0) % 2 ^ 32
  match placeAt who p (t.used / 16 + 1) s 0 n with
  | (s, none) => (s, .error 7)
  | (s, some (nc, nd, pr, khdr, m)) =>
    if nc ≠ d.nc ∨ nd ≠ d.nd ∨ pr ≠ pri ∨ khdr ≠ d.khdr then (s, .error 7)
    else
      let old := maskCores m
      let now := old.filterMap (traceMap t.cores (sortCores q.cfg.cores))
      (s, if now.length = old.length ∧ shapeOk d.nc d.nd now then .ok (sortCores now) else .error 8)
/-- The cores of a launch, or the REASON that refuses it; `who` is its issuer. -/
def placement (who : Async) (s : State) (p : Nat) (d : Desc) (pri : Nat) : State × Except Nat (List Nat) :=
  let cfg := (s.part p).cfg
  if (s.part p).trace.mode = 2 then boundCores who s p d pri
  else if d.flags = 1 then
    let l := maskCores d.cmask
    (s, if l.all cfg.cores.contains && shapeOk d.nc d.nd l then .ok l else .error 4)
  else match chooseCores s cfg d.nc d.nd with
    | some l => (s, .ok l)
    | none => (s, .error 5)

/-! ### STATUS, DONE (R301) -/

/-- STATUS of a launch, by the issuer's translation; a failure is reported to the issuer.  The device's own write is not race-checked
(R102). -/
def statusWrite (s : State) (e : IntakeE) (state reason seq : Nat) : State :=
  sideWriteBy false s (e.op s) (e.desc + 0x38) (toBytes 8 (state * 2 ^ 60 + reason * 2 ^ 48 + seq))
/-- STATUS cannot be written yet: its stack retrains, or no port of its route is up (R313, R334). -/
def statusWaits (s : State) (e : IntakeE) : Bool := reach s (e.op s) .write (e.desc + 0x38) == .wait
/-- DONE's arrival at the issuing core and its stamp, after the last STATUS write. -/
def postDone (s : State) (e : IntakeE) (cw : CWord) : State :=
  let r : Rel := ⟨e.core, cw.scope, [], false, []⟩
  let k := OpK.arrive cw.bar cw.phase (if cw.ba then [e.core] else []) r (if cw.st then some (cw.saddr, cw.val, r) else none)
  if cw.ba || cw.st then s.post { e.op s with kind := k } else s

/-! ### INTAKE_STEP (R303 to R305) -/

/-- The head that the intake serves: the highest priority, then the first submitter after the one last served (R304). -/
def intakeHead (q : Part) : Option (Nat × IntakeE) :=
  let heads := q.intake.filterMap fun e => e.2.head?.map fun d => (e.1, d)
  match heads.foldl (fun m h => Nat.max m (h.2.pri + 1)) 0 with
  | 0 => none
  | m + 1 =>
    let hs := heads.filter fun h => h.2.pri == m
    let last := q.served.get 0 m
    match hs.find? (fun h => decide (h.1 ≥ last)) with
    | some h => some h
    | none => hs.head?
/-- The head leaves its queue. -/
def popIntake (q : Part) (key pri : Nat) : Part :=
  { q with intake := q.intake.set key ((q.intake.get [] key).drop 1), served := q.served.set pri (key + 1) }
/-- A launch refused with a REASON (R301). -/
def refuseLaunch (s : State) (p key : Nat) (e : IntakeE) (d : Desc) (reason : Nat) : State :=
  let s := s.modPart p fun q => { popIntake q key e.pri with serving := none }
  let s := if reason = 7 ∨ reason = 8 then
      s.modPart p fun q => { q with trace := { q.trace with mode := 0, brk := true, starts := [] } }
    else s
  let s := statusWrite s e 4 reason 0
  if d.doneBad then s else postDone s e (d.cword e.lt)
/-- The parts enter every chosen core's launch queue in one step. -/
def enterParts (s : State) (task pri seq : Nat) : List Nat → Nat → State
  | [], _ => s
  | c :: rest, r => enterParts (s.modCore c fun k => { k with lq := k.lq ++ [⟨task, pri, seq, r⟩] }) task pri seq rest (r + 1)
/-- A launch accepted (R301, R304, R305, R309). -/
def acceptLaunch (s : State) (p key : Nat) (e : IntakeE) (d : Desc) (k : Kernel) (chans cores : List Nat) : State :=
  let seq := (s.part p).nextSeq
  let id := s.nextId
  let t := (s.part p).trace
  let r := (seq + 2 ^ 32 - t.seq0) % 2 ^ 32
  let info : TaskInfo :=
    { task := id, seq := seq, rank := 0, kcore := 0, kdie := 0, nc := d.nc, nd := d.nd, group := d.group, ltab := k.ltab,
      zmap := k.zmap, textVa := k.textVa, textSz := k.textSz, dictVa := k.dictVa, dictN := k.dictN, gen := id % 2 ^ 16 }
  let task : Task :=
    { id := id, part := p, seq := seq, pri := e.pri, desc := e.desc, args := d.args, gear := d.gear, nc := d.nc, nd := d.nd,
      group := d.group, parts := cores.map fun c => ⟨c, 0, 0⟩, info := info, sgear := k.sgear, slotg := k.slotg, bars := k.bars,
      chans := chans, done := d.cword e.lt, launch := e, failed := false, causes := [],
      state := 1 }
  let s := { s with nextId := id + 1, tasks := s.tasks ++ [task] }
  let s := s.modPart p fun q => { popIntake q key e.pri with
    nextSeq := (seq + 1) % 2 ^ 32, serving := none, ended := q.ended.filter (· != d.group), trace := if t.mode = 2 then t.bound 96 else t }
  let s := enterParts s id e.pri seq cores 0
  let s := if t.mode = 1 then traceWrite s p (placeRecord e.pri d.nc d.nd r d.khdr d.args cores) else s
  statusWrite s e 1 0 seq
/-- The checks of a descriptor in the order 3, 9, 1, 2, 6, then placement (R301); none while memory takes no request.  ARGS has only to
translate; a channel table or CMASK line that is poisoned or busy refuses the launch with REASON 9 (DEDUCED, log entry 31). -/
def launchChecks (p : Nat) (e : IntakeE) (d : Desc) (s : State) : Option (State × Except Nat (Kernel × List Nat × List Nat)) :=
  if d.bad then some (s, .error 3)
  else do
    let a := e.op s
    let (s, head) ← spanBytes a .fetch d.khdr 128 s
    let (s, args) ← translates a .read d.args s
    let (s, tab) ← spanBytes a .read d.chtab (8 * d.chn) s
    match head, args, tab with
    | some head, some _, some tab =>
      match ← readKernel a d.khdr head s with
      | (s, .error r) => some (s, .error r)
      | (s, .ok k) =>
        let chans := words 8 d.chn tab
        if featsBad s p k.feats || !s.host.negok then some (s, .error 2)
        else if chansBad (s.part p).cfg (d.nc * d.nd) chans then some (s, .error 6)
        else match placement a s p d e.pri with
          | (s, .error r) => some (s, .error r)
          | (s, .ok cores) => some (s, .ok (k, chans, cores))
    | _, _, _ => some (s, .error 9)
/-- A chosen core has no free entry (R305, R306). -/
def queueFull (s : State) (cores : List Nat) : Bool := cores.any fun c => decide ((s.core c).lq.length ≥ 32)
/-- A descriptor whose CMASK page cannot be read is refused for a field that is out of range, if the rest holds one, else for the
page (R301). -/
def halfReason (half : Option (List Byte)) : Nat :=
  match half with
  | some b => if (descOf b).bad then 3 else 9
  | none => 9
/-- The bind run that places launches now, by its block and first sequence number (R309). -/
def Trace.bindRun (t : Trace) : Option (Nat × Nat) := if t.mode = 2 then some (t.block, t.seq0) else none
/-- The trace's memory takes no request, or a `TRCCTL` is still pending: the records to bind, or the place of the next ones (R313, R334). -/
def traceHeld (s : State) (p : Nat) : Bool :=
  let q := s.part p
  !q.tracePend.isEmpty || match q.trace.mode with
  | 1 => waitsIn s p q.cfg.control (q.trace.base + q.trace.pos) 96
  | 2 => decide (q.trace.used ≠ 0) && waitsIn s p q.cfg.control q.trace.base q.trace.used
  | _ => false
/-- A head read and checked: refused, accepted, or served on while a chosen core has no free entry. -/
def serveHead (p key : Nat) (e : IntakeE) (s : State) : Option State := do
  let a := e.op s
  let (s, b) ← spanBytes a .read e.desc 128 s
  match b with
  | none =>
    let (s, half) ← spanBytes a .read e.desc 64 s
    some (refuseLaunch s p key e (descOf (half.getD [])) (halfReason half))
  | some b =>
    let d := descOf b
    match ← launchChecks p e d s with
    | (s, .error r) => some (refuseLaunch s p key e d r)
    | (s, .ok (k, chans, cores)) =>
      if queueFull s cores then some (s.modPart p fun q => { q with serving := some ⟨key, e, d, k, chans, cores, q.trace.bindRun⟩ })
      else some (acceptLaunch s p key e d k chans cores)
/-- The descriptor in service goes on; one whose cores were chosen outside the bind run that now places launches, or in one that has
ended, is placed anew (R309). -/
def serveOn (p : Nat) (v : Serving) (s : State) : Option State :=
  let now := (s.part p).trace.bindRun
  let r := if v.bind = now then (s, .ok v.cores) else placement (v.entry.op s) s p v.desc v.entry.pri
  match r with
  | (s, .error e) => some (refuseLaunch s p v.key v.entry v.desc e)
  | (s, .ok cores) =>
    if !queueFull s cores then some (acceptLaunch s p v.key v.entry v.desc v.kernel v.chans cores)
    else if v.bind = now then none
    else some (s.modPart p fun q => { q with serving := some { v with cores := cores, bind := now } })
/-- INTAKE_STEP: the descriptor in service, read once, waits until every chosen core has a free entry, and none passes it (R300,
R304, R305). -/
def execIntakeStep (part : Nat) (s : State) : Out :=
  let s := payTraces s part
  event s (
    if traceHeld s part then none
    else match (s.part part).serving with
    | some v => if statusWaits s v.entry then none else serveOn part v s
    | none =>
      match intakeHead (s.part part) with
      | none => none
      | some (key, e) =>
        match reach s (e.op s) .write e.desc with
        | .wait => none
        | .ok _ => serveHead part key e s
        | .bad f =>
          let s := s.modPart part fun q => popIntake q key e.pri
          some ((noteMiss s (e.op s) .write e.desc f).report (e.op s) (xfailCause f e.desc))
        | .gone =>
          let s := s.modPart part fun q => popIntake q key e.pri
          some (s.report (e.op s) (goneCause e.desc)))

/-! ### PART_START (R36, R37, R40, R88, R306, R309) -/

/-- SCHEDLAT words by schedule gear and slot allowance (R36, R37). -/
def schedWords (sgear slotg : Nat) : Nat × Nat :=
  let f := [5, 9, 20, 24].getD sgear 20
  let ns := fun t => (t * f + 9) / 10
  let slot := (slotg * f + 19) / 20
  (ns 320 * 2 ^ 48 + (24 + slot) * 2 ^ 32 + (60 + slot) * 2 ^ 16 + ns 1200,
   ns 400 * 2 ^ 48 + ns 450 * 2 ^ 32 + ns 800 * 2 ^ 16 + sgear * 2 ^ 8 + slotg)
/-- One entry stands before another in a core's launch queue (R306). -/
def LqEntry.before (a b : LqEntry) : Bool :=
  decide (a.pri > b.pri) || (a.pri == b.pri && decide ((b.seq + 2 ^ 32 - a.seq) % 2 ^ 32 < 2 ^ 31))
def firstEntry : List LqEntry → Option LqEntry
  | [] => none
  | e :: rest => match firstEntry rest with
    | some f => if f.before e && !(e.before f) then some f else some e
    | none => some e
/-- The entry that a core starts next: in bind mode those queued before the `TRCCTL` stand ahead of every bound one (R306, R308). -/
def nextEntry (s : State) (c : Nat) : Option LqEntry :=
  let t := (s.part (s.partOf c)).trace
  let l := (s.core c).lq
  let old := if t.mode = 2 then l.filter fun e => decide ((e.seq + 2 ^ 32 - t.seq0) % 2 ^ 32 ≥ 2 ^ 31) else []
  firstEntry (if old.isEmpty then l else old)
/-- The task context of a core: its lowest-numbered empty context, the supervisor's place left out; an image that is being loaded
there then finds its target not empty (R269, R306). -/
def taskCtx (s : State) (c : Nat) : Option Nat :=
  [0, 1, 2, 3].find? fun x => (s.ctx c x).status == .empty && !s.isSuper c x
/-- In bind mode an entry placed after the `TRCCTL` starts only as the core's next START record says (R309). -/
def traceAllows (t : Trace) (c : Nat) (e : LqEntry) : Bool :=
  let r := (e.seq + 2 ^ 32 - t.seq0) % 2 ^ 32
  t.mode != 2 || decide (r ≥ 2 ^ 31) || (t.starts.get [] c).head? == some r
/-- Bindings of a rank (R176, R302). -/
def sendBinds (t : Task) (rank : Nat) : List (Nat × SendBind) :=
  (t.chans.filter fun e => sendsHere e && (chSrc e).1 == rank).map fun e =>
    ((chSrc e).2, ⟨chPeer e, if chPeer e = 0 then t.seq else t.group, (chDst e).1, (chDst e).2⟩)
def recvBinds (t : Task) (rank : Nat) : List Nat :=
  (t.chans.filter fun e => recvsHere e && (chDst e).1 == rank).map fun e => (chDst e).2
/-- The context at task start (R40, R361). -/
def startCtx (k : Ctx) (t : Task) (rank : Nat) : Ctx :=
  let kcore := rank % t.nc
  let kdie := rank / t.nc
  let w := schedWords t.sgear t.slotg
  let g : KV Word := [(1, BitVec.ofNat 64 t.args), (2, BitVec.ofNat 64 kcore), (3, BitVec.ofNat 64 kdie),
    (4, BitVec.ofNat 64 t.nc), (5, BitVec.ofNat 64 t.nd)]
  { Ctx.reset with
    status := .suspended, busy := k.busy, level := k.level, held := k.held, bkpt := k.bkpt, gearReq := t.gear,
    regs := { Regs.start with g := g },
    info := { t.info with rank := rank, kcore := kcore, kdie := kdie },
    sched0 := BitVec.ofNat 64 w.1, sched1 := BitVec.ofNat 64 w.2,
    sends := (sendBinds t rank).foldl (fun m e => m.set e.1 e.2) [],
    recvs := (recvBinds t rank).foldl (fun m ch => m.set ch true) [] }
/-- A core's join count and knowledge are empty at the start of every task, whatever else runs there (R103; DEDUCED, log entry 71);
one that held no task starts with its barriers unarmed (R88); each initialiser then acts as `BINIT`. -/
def startBarriers (k : Core) (bars : List Nat) : Core :=
  let k := if k.ctxs.any (fun e => e.2.status != .empty) then k else { k with bars := [] }
  bars.foldl (fun k w => armBarrier k (bits w 0 11) (bits w 16 16)) { k with j := 0, k := [] }
/-- A part starts in a context. -/
def startPart (s : State) (c x : Nat) (e : LqEntry) (t : Task) : State :=
  let p := t.part
  let tr := (s.part p).trace
  let r := (e.seq + 2 ^ 32 - tr.seq0) % 2 ^ 32
  let s := s.modCore c fun k => { startBarriers k t.bars with lq := k.lq.filter (· != e) }
  let s := s.setCtx c x (startCtx (s.ctx c x) t e.rank)
  let mark := fun (u : Task) => if u.id = t.id then
      { u with state := 2, parts := setAt u.parts e.rank ⟨c, x, 1⟩ } else u
  let s := { s with tasks := s.tasks.map mark }
  let s := if tr.mode = 1 then traceWrite s p (startRecord (c % 512) r)
    else if tr.mode = 2 ∧ r < 2 ^ 31 then
      s.modPart p fun q => { q with trace := { tr with starts := tr.starts.set c ((tr.starts.get [] c).drop 1) }.bound 16 }
    else s
  let s := if t.state = 1 then statusWrite s t.launch 2 0 t.seq else s
  makeReady s c x
/-- PART_START, not while the cores are held (R343, R353) or the trace's memory takes no record. -/
def execPartStart (core : Nat) (s : State) : Out :=
  event s (
    match nextEntry s core, taskCtx s core with
    | some e, some x =>
      match s.tasks.find? (fun t => t.id == e.task) with
      | some t =>
        if traceAllows (s.part t.part).trace core e && !(s.core core).halted && !startsHeld s && !traceHeld s t.part && !(t.state == 1 && statusWaits s t.launch) then
          some (startPart s core x e t)
        else none
      | none => none
    | _, _ => none)

/-! ### The end of a task (R301, R307) -/

/-- Operations whose effects a task's end waits for. -/
def OpK.counts : OpK → Bool
  | .credit .. => false
  | .walk _ => false
  | .monRead .. => false
  | _ => true
/-- An operation of the task, a launch in its intake queue, or whose task has not ended, among them (R301, R303), has neither made its effects
nor failed. -/
def opsLeft (s : State) (task : Nat) : Bool :=
  (s.ops.any fun a => a.task == task && a.kind.counts) || (s.tasks.any fun t => t.launch.task == task && decide (t.state ≤ 2)) ||
  s.parts.any fun p => p.2.intake.any fun e => e.2.any fun d => d.task == task
/-- A launch group's task here has ended (R156). -/
def Part.over (group : Nat) (q : Part) : Part :=
  if group = 0 ∨ q.ended.contains group then q else { q with ended := q.ended ++ [group] }
/-- A task stays on record while a cause of it is still to be posted or an operation of it may still fail. -/
def closeTask (s : State) (t : Task) : State :=
  if t.state ≥ 3 ∧ t.causes.isEmpty = true ∧ opsLeft s t.id = false then { s with tasks := s.tasks.filter fun u => u.id != t.id }
  else { s with tasks := s.tasks.map fun u => if u.id = t.id then t else u }
/-- TASK_COMPLETE: every part has ended, and every operation has made its effects or failed; of a task with an aborted part, once
every part has ended (R307). -/
def execTaskComplete (task : Nat) (s : State) : Out :=
  event s (
    match s.tasks.find? (fun t => t.id == task) with
    | none => none
    | some t =>
      let aborted := t.parts.any fun p => p.state == 4
      if t.state ≥ 3 then (if t.causes.isEmpty && !opsLeft s task then some (closeTask s t) else none)
      else if t.parts.any (fun p => p.state < 3) || (!aborted && opsLeft s task) || statusWaits s t.launch then none
      else
        let state := if t.failed || aborted then 5 else 3
        let s := (closeTask s { t with state := state }).modPart t.part (Part.over t.group)
        some (postDone (statusWrite s t.launch state 0 t.seq) t.launch t.done))
/-- ENDED_CAUSE_RECORD: the record is posted once the trap queue has space; a memory-poison fault is logged (R347). -/
def execEndedCauseRecord (task : Nat) (s : State) : Out :=
  event s (
    match s.tasks.find? (fun t => t.id == task) with
    | none => none
    | some t =>
      match t.causes with
      | [] => none
      | r :: rest =>
        match postRecord s t.part r with
        | .error _ => none
        | .ok s => some (closeTask (if r.cause.code = 0x37 then s.logEvent else s) { t with causes := rest }))

end Sys2Proof.Machine
end

