-- ==== Sys2Proof/Machine/Partition.lean ====
section
/-!
DEFINITION. The events of translation and of shelf switches (R276, R280 to R290, R298, R299).
-/

namespace Sys2Proof.Machine

open Sys2Proof

/-! ### TABLE_WALK (R280 to R283, R290) -/

/-- A miss: the cluster TLB, the shelf table or a walk gives the entry that both TLBs then hold, of the shelf window a 2 MiB page
(R282, R296); a failed walk leaves none, and may mark a poisoned line; a walk waits for a stack that retrains.  A prefetch that
waited for the page is done (R194), once its ports have granted it (R19). -/
def execTableWalk (core va : Nat) (s : State) : Out :=
  let p := s.partOf core
  let op := s.ops.find? fun a => a.core == core && a.kind == .walk va
  let dropWalk := fun (s : State) => op.elim s fun a => s.dropOp a.id
  event s (
    if walkPaused s p core va || op.any (fun a => !granted s a) then none
    else if inWindow va || decide (va ≥ shelfBase + 2 ^ 40) then some (dropWalk s)
    else match pagedXl s p core va with
      | .error f => some (dropWalk (noteFail s core f))
      | .ok x =>
        let e := x.tlb p va
        let s := if (findTlb p va (s.core core).tlb).isSome then s else fillCore s core e
        some (dropWalk (if (findTlb p va (s.cluTlb.get [] (cluOf core))).isSome then s else fillClu s (cluOf core) e)))

/-! ### COUNTER_ADD (R285) -/

/-- An entry's own count has reached its threshold: it is added to the counter word, which waits for a stack that retrains (R334). -/
def execCounterAdd (core va : Nat) (s : State) : Out :=
  let p := s.partOf core
  let hit := fun (e : TlbE) => e.part == p && decide (e.va ≤ va ∧ va < e.va + e.size) && overCount e
  event s (
    match (s.core core).tlb.find? hit with
    | none => none
    | some e =>
      if stackPaused s e.counter then none else
      some ((addCounter s core e).modCore core fun k => { k with tlb := k.tlb.map fun f => if hit f then { f with count := 0 } else f }))

/-! ### The translation control block (R288) -/

/-- The device reads ROOT and the ring fields. -/
def readTcb (s : State) (p : Nat) : State :=
  let root := tcbWord s p 0
  let base := tcbWord s p 8 % 2 ^ 57
  let len := tcbWord s p 0x10 % 256
  let ok := decide (root % 2 ^ 17 = 0) && (s.part p).cfg.granted root (tableSize 3) && lpaClass root == some 3 &&
    decide (4 ≤ len ∧ len ≤ 12)
  s.modPart p fun q => { q with root := root, ringBase := base, ringLen := len, tcbOk := ok }

/-! ### TLBINV_COMPLETE (R287, R289, R290) -/

/-- Poison marks of the lines that a test names are gone on every die. -/
def unmark (s : State) (f : Nat → Bool) : State :=
  { s with walkPoison := (s.walkPoison.map fun e => (e.1, e.2.filter fun l => !f l)).filter fun e => !e.2.isEmpty }
/-- Entries and marks that a `TLBINV` drops for a partition. -/
def invalidate (s : State) (p kind va : Nat) : State :=
  if kind = 1 then
    let s := dropTlb s (fun _ => true) fun e => e.part == p
    recFlush (ringFlush (readTcb (unmark s fun l => (s.part p).cfg.granted (64 * l) 64) p) p) p
  else
    let path := pathLines s va 3 (s.part p).root
    let s := unmark (dropTlb s (fun _ => true) fun e => e.part == p && decide (e.va ≤ va ∧ va < e.va + e.size)) path.contains
    recFlush (ringFlush s p) p
/-- A near-memory command that its stack has taken works on a page that may hold an address, of whatever size, or on any. -/
def OpK.worksOn (kind va : Nat) : OpK → Bool
  | .nmcmd _ _ _ (some w) => (w.dst ++ w.src).any fun t => kind == 1 || t.va / 2 ^ 30 == va / 2 ^ 30
  | _ => false
/-- An access that an entry to be dropped has translated is on its way: over the fabric one by the same page, of whatever size, or any; at
a stack a near-memory command (R289). -/
def onItsWay (s : State) (p kind va : Nat) : Bool :=
  s.ops.any fun a => a.part == p && (a.kind.worksOn kind va || (a.unacked && a.posted.any fun q =>
    kind == 1 || q.va / 2 ^ 16 == va / 2 ^ 16 || decide (a.page.1 ≤ va ∧ va < a.page.1 + a.page.2)))
/-- The copy of a local frame to its home, line by line; a poisoned line arrives poisoned. -/
def copyHome (src dst : Nat) : Nat → State → State
  | 0, s => s
  | n + 1, s =>
    let s := (s.store (cells (dst + 64 * n) (readBytes s.mem 64 (src + 64 * n))) none).exchange dst
    copyHome src dst n (if s.poisoned (src / 64 + n) then { s with poison := s.poison ++ [dst / 64 + n] } else s)
/-- The release copy of `TLBINV.wb`: none while no port of the route is up or a stack on the way retrains; a busy range in the frame is
reported (R96), and a home that refuses the copy fails it like a translation (R318).  Bits of the home word that R279 reserves are ignored
(DESIGN CHOICE, log entry 56). -/
def releaseCopy (s : State) (a : Async) (va : Nat) : Except (State × Cause) (Option State) :=
  match wbLeaf s a.part va with
  | none => .ok (some s)
  | some (lvl, ea, e) =>
    let frame := bits e 16 32 * 2 ^ 16
    let home := bits (readNat s.mem 8 (ea + tableSize lvl)) 16 32 * 2 ^ 16
    match (s.part a.part).cfg.dest 1 (bits e 52 12) with
    | none => .ok (some s)
    | some d =>
      if s.fabric.unreach.contains d then .error (s, goneCause va)
      else if !peerTakes s a.part (farBase d + home) then .error (s.exchange (farBase d + home), xfailCause .grant va)
      else if (livePort s d).isNone || stackPaused s frame || stackPaused s ea then .ok none
      else if (rangeLines frame (2 ^ pageBits lvl)).any (nmBusy s) then .error (s, raceCause ⟨5, 0, 0⟩ va 0)
      else .ok (some (copyHome frame (farBase d + home) (2 ^ pageBits lvl / 64) s))
/-- What a `TLBINV` reads cannot be read now, for its stack retrains (R334): the control block, or a table on the path. -/
def tlbinvPaused (s : State) (p kind va : Nat) : Bool :=
  if kind = 1 then tcbPaused s p
  else (s.part p).tcbOk && (pathLines s va 3 (s.part p).root).any fun l => stackPaused s (64 * l)
/-- TLBINV_COMPLETE: the counts of the dropped entries have been added (R289), and a poisoned line that the path of a release copy meets
is marked (R290). -/
def execTlbinvComplete (id : Nat) (s : State) : Out :=
  onOp s id fun a => match a.kind with
    | .tlbinv kind va cw =>
      if onItsWay s a.part kind va || tlbinvPaused s a.part kind va then none else
      let s := invalidate s a.part kind va
      if s.owed.any (Owed.of a.part) then none
      else if kind ≠ 2 then some (finish s a cw)
      else match releaseCopy ((wbPoison s a.part va).elim s (markLine s (dieOf a.core))) a va with
        | .error (s, q) => some (failOp s a q)
        | .ok none => none
        | .ok (some s) => some (finish s a cw)
    | _ => none

/-! ### SHELF_SWITCH_FAILURE (R286, R298, R299) -/

/-- What the loss of a peer does to an allocation (R299). -/
def Alloc.lose (peer : Nat) (a : Alloc) : Alloc :=
  if a.state = 2 then a
  else match a.peer2 with
    | none => if a.peer1 = peer then { a with state := 2 } else a
    | some q =>
      if a.peer1 = peer then { a with state := 1, peer1 := q, peer2 := none }
      else if q = peer then { a with state := 1, peer2 := none }
      else a
/-- A shelf-loss notice; SIZE and CORE are not stated for it (DESIGN CHOICE, log entry 32). -/
def lossNotice (p peer : Nat) (s : State) (a : Alloc) : State :=
  let info := peer + (if a.state = 1 then 2 ^ 63 else 0)
  let bytes := ringBytes 3 (Config.noticeField s.tick) (Config.noticeField (s.tick + 1)) a.gen a.base info
  let s := { s with tick := s.tick + 2 }
  match ringPostOrHold s p bytes with
  | some s => s
  | none => ringDrop s p
/-- An access of a partition in flight when the switch at `dest` is lost: of a mirrored allocation a write goes on at the survivor, an
atomic at the primary has an unknown outcome; any other access to it ceases with the generation (R298, R299). -/
def inFlightLoss (p dest : Nat) (before : List Alloc) (s : State) (a : Async) : State :=
  match (if a.part = p ∧ a.unacked = true then a.posted else none) with
  | none => s
  | some q =>
    match before.find? fun e => decide (e.base ≤ q.va ∧ q.va < e.base + e.size) with
    | none => s
    | some e =>
      let lost := fun (s : State) => failOp s a { code := 0x33, addr := q.va, info0 := e.gen }
      if destOf a.dst = some dest then
        match a.mir, a.kind with
        | none, _ => lost s
        | some m, .atom _ _ op w b cmp _ rel =>
          let n := atomBytes w
          let did := Config.lostAtomic s.tick
          let s := { s with tick := s.tick + 1 }
          lost (if did then s.store (cells m (toBytes n (atomNew op (8 * n) (readNat s.mem n m) b cmp))) rel else s)
        | some _, _ => s.setOp { a with unacked := false, mir := none }
      else if a.mir.bind destOf = some dest then s.setOp { a with mir := none }
      else s
/-- One partition loses the shelf switch that its peer table names. -/
def loseSwitch (p dest : Nat) (s : State) (peer : Nat) : State :=
  let before := (s.part p).shelf
  let hit := before.filter fun a => a.lose peer != a
  let s := s.ops.foldl (inFlightLoss p dest before) s
  let s := s.modPart p fun q => { q with shelf := q.shelf.map (Alloc.lose peer) }
  let s := dropTlb s (fun _ => true) fun e => e.part == p && hit.any fun a => decide (a.base ≤ e.va ∧ e.va < a.base + a.size)
  (hit.map (Alloc.lose peer)).foldl (lossNotice p peer) s
/-- The shelf switch at a fabric destination is lost to every partition. -/
def loseDest (s : State) (dest : Nat) : State :=
  (s.parts.filter fun e => e.2.live).foldl (fun s e =>
    ((e.2.cfg.peers.filter fun r => r.2.1 == 2 && r.2.2 == dest).map (·.1)).foldl (loseSwitch e.1 dest) s) s
/-- A switch that fails leaves the unacknowledged chunks of its collectives to the chain (R323). -/
def leaveSwitch (s : State) (dest : Nat) : State :=
  let mine := fun (c : Coll) => c.viaSwitch && c.ranks.any fun r => r.op.isNone && (livePort s dest).isSome && livePort s r.src == livePort s dest
  { s with colls := s.colls.map fun c => if mine c then { c with viaSwitch := false, hop := 0, partial_ := [] } else c }
/-- SHELF_SWITCH_FAILURE. -/
def execShelfSwitchFailure (dest : Nat) (s : State) : Out := .next (leaveSwitch (loseDest s dest) dest)

end Sys2Proof.Machine
end

