-- ==== Sys2Proof/Machine/Collective.lean ====
section
/-!
DEFINITION. The collective engine (R193, R281, R315, R320 to R323, R326): registration, agreement, staging, the chain, reduction in
a switch, and the writes at the receiving ranks.
-/

namespace Sys2Proof.Machine

open Sys2Proof

def State.coll (s : State) (id : Nat) : Option Coll := s.colls.find? fun c => c.id == id
def State.setColl (s : State) (c : Coll) : State := { s with colls := s.colls.map fun d => if d.id = c.id then c else d }
def State.dropColl (s : State) (id : Nat) : State := { s with colls := s.colls.filter fun c => c.id != id }

/-! ### Failure (R193, R322) -/

/-- The operations of a collective's participants on this module. -/
def Coll.here (c : Coll) (s : State) : List Async := c.ranks.filterMap fun r => r.op.bind s.findOp
/-- A collective ceases: operation `id` with a cause, the other participants with another. -/
def failColl (s : State) (c : Coll) (id : Nat) (q other : Cause) : State :=
  (c.here s).foldl (fun s a => failOp s a (if a.id = id then q else other)) (s.dropColl c.id)
/-- The deferred collective fault. -/
def collCause : Cause := { code := 0x35 }

/-! ### Registration (R320) -/

/-- What participants must agree on. -/
def CollDesc.agrees (a b : CollDesc) : Bool :=
  a.op == b.op && a.fmt == b.fmt && a.red == b.red && a.count == b.count && a.nrank == b.nrank
def Coll.agreed (c : Coll) : Bool :=
  match c.ranks with
  | [] => false
  | r :: rest => rest.all (fun t => t.desc.agrees r.desc) &&
      (c.ranks.map fun t => t.desc.rank).eraseDups.length == c.ranks.length
/-- A switch reduces: every participant is on a module of its own, and every route leads through one port to a switch that
reduces the format (R323; what is one switch: DESIGN CHOICE, log entry 34). -/
def Coll.switched (s : State) (c : Coll) : Bool :=
  match c.ranks, c.far.map fun t => livePort s t.src with
  | r :: _, some p :: rest =>
    let fb := match r.desc.fmt with | 3 => 2 | 8 => 3 | _ => 4
    let q := s.fabric.ports.get Port.reset p
    decide (r.desc.op ≤ 1) && decide (r.desc.nrank ≤ 256) && s.hasFeat c.part 5 &&
    c.far.length + 1 == c.ranks.length && (c.far.map fun t => t.src).eraseDups.length == c.far.length &&
    rest.all (· == some p) && q.far == 2 && bit (portFw q 1) 1 && bit (portFw q 1) fb
  | _, _ => false
/-- The same participant: a context of this module, or one of another (R193). -/
def CollRank.same (a b : CollRank) : Bool := a.op.isNone == b.op.isNone && a.src == b.src && a.core == b.core && a.ctx == b.ctx
/-- A participant enters the first collective of its task, LGROUP and GROUP that has not started and has no `COLL` of it; with
NRANK registered, the collective starts, or ceases. -/
def joinColl (s : State) (part task lgroup group : Nat) (r : CollRank) : State :=
  let mine := fun (c : Coll) => c.part == part && c.task == task && c.lgroup == lgroup && c.group == group && !c.started &&
    !c.ranks.any r.same
  let c : Coll := match s.colls.find? mine with
    | some c => c
    | none => ⟨s.nextId, part, task, lgroup, group, [], false, 0, [], 0, [], false, false⟩
  let s := if s.colls.any mine then s else { s with nextId := s.nextId + 1, colls := s.colls ++ [c] }
  let c := { c with ranks := c.ranks ++ [r] }
  let need : Nat := match c.ranks.head? with | some t => t.desc.nrank | none => 0
  if c.ranks.length < need then s.setColl c
  else if c.far.any fun t => s.fabric.unreach.contains t.src then failColl s c 0 (goneCause 0) (goneCause 0)
  else if c.agreed then s.setColl { c with started := true, viaSwitch := c.switched s }
  else failColl s c 0 collCause collCause
/-- The operation has registered. -/
def registered (s : State) (id : Nat) : Bool := s.colls.any fun c => c.ranks.any fun r => r.op == some id
/-- Collectives of one context and group register in issue order. -/
def collTurn (s : State) (a : Async) (group : Nat) : Bool :=
  !((s.mine a.core a.ctx).any fun b => b.task == a.task && decide (b.ord < a.ord) && !registered s b.id &&
    (match b.kind with | .coll d _ _ _ => d.group == group | _ => false))
/-- COLL_REGISTRATION: with the engines of the task, those of a launch group over the fabric, once its ports have granted it (R19). -/
def execCollRegistration (id : Nat) (s : State) : Out :=
  onOp s id fun a => match a.kind with
    | .coll d _ _ _ =>
      if registered s id || !collTurn s a d.group then none
      else
        let l := lgroupOf s a.task
        let s := ((taskPeers s a.part l 4).filterMap ((s.part a.part).cfg.dest 1)).foldl State.sendOn s
        some (joinColl s a.part (if l = 0 then a.task else 0) l d.group ⟨d, some id, a.core, a.ctx, 0, []⟩)
    | _ => none

/-! ### Staging (R320) -/

/-- Elements of the chunk in work: 64 KiB of them, 16 KiB through a switch. -/
def Coll.elems (c : Coll) (d : CollDesc) : Nat :=
  Nat.min ((if c.viaSwitch && !c.fell then 16384 else 65536) / d.size) (d.count - c.chunk)
/-- A span read granule by granule. -/
def readSpan (a : Async) : State → Nat → List Nat → Except Miss (State × List Byte)
  | s, _, [] => .ok (s, [])
  | s, va, n :: rest =>
    match readChunk s a va n true with
    | .error m => .error m
    | .ok (s, b) =>
      match readSpan a s (va + n) rest with
      | .error m => .error m
      | .ok (s, l) => .ok (s, b ++ l)
/-- Sizes of the granules of `n` bytes from a granule's start. -/
def granSizes (n : Nat) : List Nat := (List.range ((n + 63) / 64)).map fun i => Nat.min 64 (n - 64 * i)
/-- One rank's contribution: what another module has sent; of an operation here, what its issue has read, or its source now.  Of a
broadcast only the root's source is read. -/
def stageOne (s : State) (off n : Nat) (r : CollRank) : Except (Nat × Miss) (State × List Byte) :=
  if r.desc.srcBytes = 0 then .ok (s, [])
  else match r.op with
    | none => .ok (s, (r.data.drop off).take n)
    | some id =>
      match s.findOp id with
      | none => .error (id, .wait)
      | some a =>
        match a.kind with
        | .coll _ _ _ (some own) => .ok (s, (own.drop off).take n)
        | _ => (readSpan a s (r.desc.src + off) (granSizes n)).mapError fun m => (id, m)
/-- Contributions of the ranks, in ascending order; or the operation whose source cannot be read. -/
def stageAll (off n : Nat) : State → List CollRank → Except (Nat × Miss) (State × List (List Byte))
  | s, [] => .ok (s, [])
  | s, r :: rest =>
    match stageOne s off n r with
    | .error m => .error m
    | .ok (s, b) =>
      match stageAll off n s rest with
      | .error m => .error m
      | .ok (s, l) => .ok (s, b :: l)
/-- Participants by rank. -/
def Coll.ordered (c : Coll) (d : CollDesc) : List CollRank :=
  (List.range d.nrank).filterMap fun k => c.ranks.find? fun r => r.desc.rank == k
/-- What a miss of a participant does: it waits, takes the Kloty slow path once, or ends the collective (R281, R326). -/
def missColl (s : State) (c : Coll) (id : Nat) (m : Miss) : Option State :=
  match s.findOp id with
  | none => none
  | some a =>
    match m with
    | .wait => none
    | .cause q => some (failColl s c id q (if q.code = 0x34 then q else collCause))
    | .poison line va shelf =>
      let s' := consumeFar (s.exchange (64 * line)) a line va shelf (some 0x35)
      if (s'.findOp id).isSome then some s' else some (failColl s' c id collCause collCause)
    | .xl f va write =>
      let q := xfailCause f va
      let s := turnedAway s a (if write then .write else .read) va
      match f, a.kind with
      | .poison .., _ => some (failColl (noteFail s a.core f) c id q collCause)
      | .lost .., _ => some (failColl s c id q collCause)
      | _, .coll d cw slow own =>
        if slow.stage = 3 ∧ slow.covers va = true then some (failColl s c id { code := 0x31, addr := va } collCause)
        else some (s.setOp { a with kind := .coll d cw ⟨1, va, write.toNat + xfailInfo f, 0, failSize s a.part a.core va⟩ own })
      | _, _ => none
/-- No participant waits for the slow path, and each one on another module has a port that is up: with none, the collective
pauses (R322). -/
def Coll.clear (c : Coll) (s : State) : Bool :=
  ((c.here s).all fun a => match a.kind with | .coll _ _ w _ => w.free | _ => true) &&
  c.far.all fun r => (livePort s r.src).isSome
/-- The chunk's contributions stand in the staging stores. -/
def staged (s : State) (c : Coll) (d : CollDesc) (f : State → Coll → Option State) : Option State :=
  if !c.staged.isEmpty then f s c
  else match stageAll (c.chunk * d.size) (c.elems d * d.size) s (c.ordered d) with
    | .error (id, m) => missColl s c id m
    | .ok (s, l) => f s { c with staged := l }

/-! ### Reduction (R193, R321, R323) -/

/-- One step of a reduction on an element. -/
def redElem (d : CollDesc) (x y : Nat) : Nat :=
  match d.fmt, d.red with
  | 3, 0 => (x + y) % 2 ^ 32
  | 3, 1 => maxN false 32 x y
  | 3, _ => minN false 32 x y
  | f, 0 => (fadd f ⟨0, 0⟩ x y).1
  | f, 1 => (fminmax f true x y).1
  | f, _ => (fminmax f false x y).1
/-- One step on the bytes of a chunk. -/
def redBytes (d : CollDesc) (x y : List Byte) : List Byte :=
  let n := x.length / d.size
  ((words d.size n x).zip (words d.size n y)).flatMap fun e => toBytes d.size (redElem d e.1 e.2)
def Coll.desc (c : Coll) : Option CollDesc := c.ranks.head?.map fun r => r.desc
/-- Operations that have moved a unit: the next has no grant yet (R19). -/
def State.spend (s : State) (l : List Async) : State :=
  { s with ops := s.ops.map fun a => if l.any (fun b => b.id == a.id) then { a with grants := [] } else a }
/-- A started collective that can go on, whose operations here have been granted their units. -/
def onColl (s : State) (id : Nat) (f : Coll → CollDesc → Option State) : Out :=
  event s (((s.coll id).filter fun c => c.started && c.clear s && (c.here s).all (granted s)).bind fun c =>
    (c.desc.bind (f c)).map fun s' => s'.spend (c.here s))
/-- `n` bytes go from one rank to another: over the fabric in requests of the largest payload, each answered (R311, R315; DESIGN CHOICE, log
entry 34). -/
def hop (s : State) (n : Nat) (a b : Option CollRank) : State :=
  match a, b with
  | some a, some b =>
    match a.op, b.op with
    | some _, none => s.exchangeTo b.src n
    | none, some _ => s.exchangeTo a.src n
    | _, _ => s
  | _, _ => s
/-- The destination that the switch of a collective is: what the peer table names behind the port of its routes (R294, R323; DESIGN CHOICE,
log entry 34). -/
def Coll.switchDest (s : State) (c : Coll) : Option Nat :=
  (c.far.head?.bind fun r => livePort s r.src).map fun p =>
    (((s.part c.part).cfg.peers.find? fun e => e.2.1 == 2 && livePort s e.2.2 == some p).map (·.2.2)).getD (Config.switchAt p)
/-- `n` bytes go to the switch, or come from it. -/
def hopSwitch (s : State) (c : Coll) (n : Nat) : State := (c.switchDest s).elim s fun d => s.exchangeTo d n
/-- What this module's rank sends to the switch of the chunk in work (R323). -/
def Coll.sends (c : Coll) (d : CollDesc) : Nat := ((((c.ordered d).zip c.staged).find? fun e => e.1.op.isSome).map (·.2.length)).getD 0
/-- CHAIN_PARTIAL_ARRIVAL: the next rank combines the partial result with its contribution. -/
def execChainPartialArrival (id : Nat) (s : State) : Out :=
  onColl s id fun c d =>
    if d.op > 1 || (c.viaSwitch && !c.fell) || decide (c.hop ≥ d.nrank) then none
    else staged s c d fun s c =>
      if c.hop = 0 then some (s.setColl { c with hop := 1, partial_ := c.staged.headD [] })
      else
        let l := c.ordered d
        some ((hop s c.partial_.length l[c.hop - 1]? l[c.hop]?).setColl
          { c with hop := c.hop + 1, partial_ := redBytes d c.partial_ (c.staged.getD c.hop []) })
/-- SWITCH_RESULT: the switch has summed the contributions in ascending rank order. -/
def execSwitchResult (id : Nat) (s : State) : Out :=
  onColl s id fun c d =>
    if d.op > 1 || !c.viaSwitch || c.fell || decide (c.hop ≥ d.nrank) then none
    else staged s c d fun s c => match c.staged with
      | [] => none
      | b :: rest => some ((hopSwitch s c (c.sends d)).setColl { c with hop := d.nrank, partial_ := rest.foldl (redBytes d) b })
/-- FALLBACK: the switch abandons the chunk, and the chain does it from the staged contributions.  This module's has gone out, and the
status has come. -/
def execFallback (id : Nat) (s : State) : Out :=
  onColl s id fun c d =>
    if !c.viaSwitch || c.fell || decide (c.hop ≥ d.nrank) then none
    else staged s c d fun s c =>
      some (((c.switchDest s).elim s fun e => (s.exchangeTo e (c.sends d)).heard e).setColl { c with fell := true, hop := 0, partial_ := [] })
/-- A collective re-forms: every unacknowledged chunk starts again from the staged contributions (R322); where its switch no longer
stands on every route, the chain does them (R323). -/
def Coll.reform (c : Coll) (s : State) : Coll :=
  if c.far.isEmpty then c else { c with hop := 0, partial_ := [], viaSwitch := c.viaSwitch && c.switched s }

/-! ### Results (R193, R320) -/

/-- What a rank receives of the chunk: addresses with bytes. -/
def Coll.gives (c : Coll) (d : CollDesc) (r : CollRank) : List (Nat × List Byte) :=
  let z := d.size
  match d.op with
  | 0 => [(r.desc.dst + c.chunk * z, c.partial_)]
  | 1 =>
    let own := d.count / d.nrank
    let lo := Nat.max c.chunk (r.desc.rank * own)
    let hi := Nat.min (c.chunk + c.partial_.length / z) ((r.desc.rank + 1) * own)
    if hi ≤ lo then []
    else [(r.desc.dst + (lo - r.desc.rank * own) * z, (c.partial_.drop ((lo - c.chunk) * z)).take ((hi - lo) * z))]
  | 2 => (List.range d.nrank).map fun j => (r.desc.dst + (j * d.count + c.chunk) * z, c.staged.getD j [])
  | _ => [(r.desc.dst + c.chunk * z, c.staged.getD r.desc.root [])]
/-- Bytes with their addresses, cut at granules. -/
def granCuts (l : List (Nat × Byte)) : List (List (Nat × Byte)) :=
  match l with
  | [] => []
  | b :: rest =>
    match granCuts rest with
    | (c :: g) :: gs => if c.1 / 64 = b.1 / 64 then (b :: c :: g) :: gs else [b] :: (c :: g) :: gs
    | gs => [b] :: gs
/-- Writes of a participant, a granule at a time; its own scratchpad in the swizzled view. -/
def writeColl (a : Async) : State → List (List (Nat × Byte)) → Except Miss State
  | s, [] => .ok s
  | s, g :: rest =>
    let va := (g.headD (0, 0)).1
    if a.core < 512 ∧ inScratch va g.length then
      let pairs := ((scratchGas true (s.zmapOf a) a.core g.length va).getD []).zip (g.map (·.2))
      match partLines s pairs with
      | l :: _ => .error (.poison l va false)
      | [] => writeColl a (s.store pairs none) rest
    else match writeGroup s a true g with
      | .error m => .error m
      | .ok s => writeColl a s rest
/-- The writes of every rank of this module. -/
def writeRanks (c : Coll) (d : CollDesc) : State → List CollRank → Except (Nat × Miss) State
  | s, [] => .ok s
  | s, r :: rest =>
    match r.op.bind s.findOp with
    | none => writeRanks c d s rest
    | some a =>
      match writeColl a s ((c.gives d r).flatMap fun p => granCuts (cells p.1 p.2)) with
      | .error m => .error (a.id, m)
      | .ok s => writeRanks c d s rest
/-- The rank that a piece of a rank's result comes from: the last of the chain, the rank that gathers it, the root; of a switch none. -/
def Coll.giver (c : Coll) (d : CollDesc) (j : Nat) : Option CollRank :=
  let l := c.ordered d
  match d.op with
  | 0 | 1 => if c.viaSwitch && !c.fell then none else l.getLast?
  | 2 => l[j]?
  | _ => l[d.root]?
/-- A piece of a rank's result goes to it, from a rank or from the switch. -/
def sendPiece (c : Coll) (d : CollDesc) (r : CollRank) (s : State) (g : (Nat × List Byte) × Nat) : State :=
  match c.giver d g.2 with
  | some a => hop s g.1.2.length (some a) (some r)
  | none => if r.op.isSome then hopSwitch s c g.1.2.length else s
/-- The chunk's result goes to every rank that receives it. -/
def sendResults (c : Coll) (d : CollDesc) (s : State) : State :=
  (c.ordered d).foldl (fun s r => (c.gives d r).zipIdx.foldl (sendPiece c d r) s) s
/-- A collective is done: each participant's completion word takes effect. -/
def finishColl (s : State) (c : Coll) : State :=
  (c.here s).foldl (fun s a => match a.kind with | .coll _ cw _ _ => finish s a cw | _ => s) (s.dropColl c.id)
/-- CHUNK_ACKNOWLEDGED: the chunk's result has been written at every rank that receives it. -/
def execChunkAcknowledged (id : Nat) (s : State) : Out :=
  onColl s id fun c d =>
    if d.op ≤ 1 && decide (c.hop < d.nrank) then none
    else staged s c d fun s c =>
      match writeRanks c d s (c.ordered d) with
      | .error (i, m) => missColl (s.setColl c) c i m
      | .ok s' =>
        let s' := sendResults c d s'
        let n := (c.staged.getD (if d.op = 3 then d.root else 0) []).length / d.size
        let next := { c with chunk := c.chunk + n, staged := [], hop := 0, partial_ := [], fell := false }
        some (if next.chunk ≥ d.count then finishColl s' c else s'.setColl next)

end Sys2Proof.Machine
end

