-- ==== Sys2Proof/Machine/Fabric.lean ====
section
/-!
DEFINITION. The fabric's events (R310 to R318, R322): items received in route-sequence order, links and ports, destinations that
become unreachable.
-/

namespace Sys2Proof.Machine

open Sys2Proof

/-! ### Items received (R44, R150, R295, R311, R318, R320) -/

/-- The partition that an ingress entry names for a source module and tenant (R318). -/
def ingressPart (s : State) (src tenant : Nat) : Option Nat :=
  match s.fabric.ingress.get 0 (src * 2 ^ 16 + tenant) with
  | 0 => none
  | p + 1 => if (s.part p).live then some p else none
/-- An operation of a sender on another module, after the earlier ones of that sender which `earlier` names. -/
def farOp (s : State) (p src : Nat) (earlier : OpK → Bool) (kind : OpK) : Async :=
  let before := (s.ops.filter fun a => a.core == farSender src && a.part == p && earlier a.kind).map (·.id)
  { mkOp s 0 0 ⟨0, 0, 15, 0⟩ before kind with core := farSender src, ctx := 0, task := 0, seq := 0, part := p }
/-- A beat from another module is on its way to its part: LGROUP, rank, channel, timestamp, poison flag, data.  Beats of one channel
stay in order (R311). -/
def farBeat (s : State) (p src : Nat) (bytes : List Byte) : State :=
  let x := ofBytes bytes
  let ch := bits x 48 8
  let b : Beat := ⟨bits x 64 64, BitVec.ofNat 512 (bits x 192 512), bit x 56, farSender src, 0, ch, 0⟩
  let bind : SendBind := ⟨0, bits x 0 32, bits x 32 16, ch⟩
  s.post (farOp s p src (fun k => match k with | .beat m _ _ => m == bind | _ => false) (.beat bind b false))
/-- An arrival from another module, for the cores of its launch group's task: LGROUP, barrier, phase (R150; DESIGN CHOICE, log entry 34).
Arrivals of one source stay in order (R89, R311). -/
def farArrival (s : State) (p src : Nat) (bytes : List Byte) : State :=
  let x := ofBytes bytes
  s.post (farOp s p src (fun k => match k with | .signal .. => true | .arrive .. => true | _ => false)
    (.signal 0 (bits x 0 32) (bits x 32 11) (bits x 64 32)))
/-- Bytes that a request names. -/
def FabItem.span (i : FabItem) : Nat := if i.kind = 2 then atomBytes (bits (ofBytes i.bytes) 8 8) else i.bytes.length
/-- The ingress check of a request (R318, R352): every byte in an extent of the partition and in no hole.  No page of this model is
mapped only to the spare-bit store. -/
def ingressOk (s : State) (p : Nat) (i : FabItem) : Bool :=
  (s.part p).cfg.granted i.addr i.span && !expHole s i.addr && !expHole s (i.addr + (i.span - 1))
/-- What an item in its turn does (DESIGN CHOICE, log entry 34): 0 a read, 1 a write, 2 an atomic, which wait at the ingress port once
they have passed the check, 3 a beat, 4 a credit, 5 the registration of a collective's participant with its contribution, 6 a barrier
arrival.  A refused request performs nothing; requests, beats and arrivals are answered. -/
def receive (s : State) (i : FabItem) : State :=
  match ingressPart s i.src i.tenant with
  | none => if i.kind ≤ 3 ∨ i.kind = 6 then s.sendOn i.src else s
  | some p =>
    let x := ofBytes i.bytes
    if i.kind ≤ 2 then
      if ingressOk s p i then { s with fabric := { s.fabric with arrived := s.fabric.arrived ++ [(p, i)] } } else s.sendOn i.src
    else match i.kind with
      | 3 => (farBeat s p i.src i.bytes).sendOn i.src
      | 4 =>
        let a : Async := mkOp s (bits x 0 16) (bits x 16 8) ⟨0, 0, 15, 0⟩ []
          (.credit (bits x 0 16 % 1024) (bits x 16 8) (bits x 24 8) (bits x 32 8) (bits x 64 64))
        s.post a
      | 5 =>
        let d := collDesc (i.bytes.take 64)
        joinColl s p 0 (i.addr % 2 ^ 32) d.group ⟨d, none, bits i.addr 32 16, bits i.addr 48 8, i.src, i.bytes.drop 64⟩
      | 6 => (farArrival s p i.src i.bytes).sendOn i.src
      | _ => s
/-- An accepted request performs at its endpoint (R96, R325) and is answered; one to a busy range or a poisoned line, which it does not
cover whole, performs nothing.  A stack that retrains accepts nothing (R334). -/
def performArrived (s : State) (e : Nat × FabItem) : Option State :=
  let i := e.2
  let x := ofBytes i.bytes
  let put := fun (bytes : List Byte) => if (partLines s (cells i.addr bytes)).isEmpty then s.store (cells i.addr bytes) none else s
  let n := i.span
  if stackPaused s i.addr then none
  else
    let s' :=
      if nmBusy s (i.addr / 64) then s
      else match i.kind with
        | 1 => put i.bytes
        | 2 =>
          if s.poisoned (i.addr / 64) then s
          else put (toBytes n (atomNew (bits x 0 8) (8 * n) (readNat s.mem n i.addr) (bits x 64 64 % 2 ^ (8 * n))
            (bits x 128 64 % 2 ^ (8 * n))))
        | _ => s
    some ({ s' with fabric := { s'.fabric with arrived := s'.fabric.arrived.erase e } }.sendOn i.src)
/-- The item is taken; the source's next sequence is expected. -/
def takeItem (s : State) (i : FabItem) : State :=
  receive { s with fabric := { s.fabric with rxSeq := s.fabric.rxSeq.put 0 i.src ((i.seq + 1) % 2 ^ 32) } } i
/-- Held items other than those of a source and sequence. -/
def dropHeld (s : State) (src seq : Nat) : State :=
  { s with fabric := { s.fabric with held := s.fabric.held.filter fun j => !(j.src == src && j.seq == seq) } }
/-- Items that waited for the one just taken. -/
def drainHeld (src : Nat) : Nat → State → State
  | 0, s => s
  | n + 1, s =>
    match s.fabric.held.find? (fun i => i.src == src && i.seq == s.fabric.rxSeq.get 0 src) with
    | none => s
    | some i => drainHeld src n (takeItem (dropHeld s src i.seq) i)
/-- FABRIC_RECEIVE: in route-sequence order for each source; a duplicate is dropped, an early item waits. -/
def execFabricReceive (src tenant seq kind addr : Nat) (bytes : List Byte) (s : State) : Out :=
  let i : FabItem := ⟨src, tenant, seq % 2 ^ 32, kind, addr, bytes⟩
  let want := s.fabric.rxSeq.get 0 src
  let ahead := (i.seq + 2 ^ 32 - want) % 2 ^ 32
  .next (
    if ahead = 0 then drainHeld src s.fabric.held.length (takeItem (dropHeld s src i.seq) i)
    else if ahead ≥ 2 ^ 31 || s.fabric.held.any (fun j => j.src == src && j.seq == i.seq) then s
    else { s with fabric := { s.fabric with held := s.fabric.held ++ [i] } })

/-! ### Links and ports (R312 to R314, R316, R322, R347) -/

def State.port (s : State) (p : Nat) : Port := s.fabric.ports.get Port.reset p
def State.setPort (s : State) (p : Nat) (q : Port) : State :=
  { s with fabric := { s.fabric with ports := s.fabric.ports.set p q } }
def Port.link (q : Port) (l : Nat) : Link := q.links.get Link.down l
def Port.isUp (q : Port) : Bool := [0, 1, 2, 3].any fun l => (q.link l).up
/-- Collectives re-form whose traffic has left by another port before, or by none (R322). -/
def reformMoved (old s : State) : State :=
  { s with colls := s.colls.map fun c => if c.far.any fun r => livePort old r.src != livePort s r.src then c.reform s else c }
/-- A link counts as failed, which Kloty logs. -/
def countFailure (s : State) (p : Nat) : State :=
  (s.setPort p { s.port p with fails := Nat.min ((s.port p).fails + 1) 255 }).logEvent
/-- A link comes up with the far side's words, whose reserved bits read zero (R5, R314); words that differ from those of the port's
other links hold it down, and it counts as failed and is retrained. -/
def linkUp (s : State) (p l fw0 fw1 : Nat) : State :=
  let q := s.port p
  let fw0 := fwMask 0 fw0
  let fw1 := fwMask 1 fw1
  let others := ([0, 1, 2, 3].filter fun j => j != l && (q.link j).up)
  if others.any fun j => (q.link j).fw0 != fw0 || (q.link j).fw1 != fw1 then countFailure (s.setPort p { q with links := q.links.set l ⟨false, true, 0, 0⟩ }) p
  else
    let s' := s.setPort p { q with links := q.links.set l ⟨true, false, fw0, fw1⟩ }
    reformMoved s s'
/-- LINK_UP. -/
def execLinkUp (port link far fw0 fw1 : Nat) (s : State) : Out :=
  event s (
    if port ≥ 24 || link ≥ 4 || ((s.port port).link link).up then none
    else
      let s := if (s.port port).isUp then s else s.setPort port { s.port port with far := far % 4 }
      some (linkUp s port link (fw0 % 2 ^ 64) (fw1 % 2 ^ 64)))
/-- LINK_RETRAIN. -/
def execLinkRetrain (port link fw0 fw1 : Nat) (s : State) : Out :=
  event s (
    if port ≥ 24 || link ≥ 4 || ((s.port port).link link).up then none
    else some (linkUp s port link (fw0 % 2 ^ 64) (fw1 % 2 ^ 64)))
/-- FLIT_REPLAY: RTRY counts it. -/
def execFlitReplay (port link : Nat) (s : State) : Out :=
  event s (
    if port ≥ 24 || !((s.port port).link link).up then none
    else some (s.setPort port { s.port port with rtry := satCount (s.port port).rtry }))
/-- LINK_FAILURE: the link leaves its port and is retrained; a port with no link up is down, and collectives on it re-form. -/
def execLinkFailure (port link : Nat) (s : State) : Out :=
  event s (
    if port ≥ 24 || !((s.port port).link link).up then none
    else
      let q := s.port port
      let old := s
      let s := countFailure (s.setPort port { q with links := q.links.set link ⟨false, true, 0, 0⟩ }) port
      some (if (s.port port).isUp then s else reformMoved old s.logEvent))

/-! ### Unreachable destinations (R299, R313, R319, R322) -/

/-- The address an operation's access names; 0 for a beat or an arrival. -/
def Async.va (a : Async) : Nat := (a.posted.map (·.va)).getD 0
/-- An operation not acknowledged by a destination that is unreachable performs nothing and ceases with the fault. -/
def giveUp (dest : Nat) (s : State) (a : Async) : State :=
  match s.findOp a.id with
  | some b => if b.unacked && destOf b.dst == some dest then failOp s b (goneCause b.va) else s
  | none => s
/-- A collective with a participant on an unreachable module: every participant takes the peer-unreachable fault. -/
def collGone (dest : Nat) (s : State) (c : Coll) : State :=
  if c.ranks.any fun r => r.op.isNone && r.src == dest then failColl s c 0 (goneCause 0) (goneCause 0) else s
/-- DESTINATION_UNREACHABLE: every port of its route has been down for 10 ms.  A shelf switch there is lost first, with the outcomes
of R299 for the accesses in flight to it. -/
def execDestinationUnreachable (dest : Nat) (s : State) : Out :=
  event s (
    if s.fabric.unreach.contains dest || (livePort s dest).isSome then none
    else
      let s := loseDest s dest
      let s := s.ops.foldl (giveUp dest) s
      let s := s.colls.foldl (collGone dest) s
      some { s with fabric := { s.fabric with unreach := s.fabric.unreach ++ [dest] } })
/-- REACHABLE_MARK: by Kloty, once one of its ports is up. -/
def execReachableMark (dest : Nat) (s : State) : Out :=
  event s (
    if (livePort s dest).isNone then none
    else some { s with fabric := { s.fabric with unreach := s.fabric.unreach.filter (· != dest) } })

end Sys2Proof.Machine
end

