-- ==== Sys2Proof/Machine/Grants.lean ====
section
/-!
DEFINITION. What Kloty grants (R254, R276, R288, R291, R292, R313, R318, R322, R361): slot tables, routes, the creation of partitions and
their change.
-/

namespace Sys2Proof.Machine

open Sys2Proof

/-! ### Slot tables and partitions (R254, R291, R292, R361) -/

/-- SLOT_TABLE_SWITCH: the waiting table is in force from the next frame on. -/
def execSlotTableSwitch (port : Nat) (s : State) : Out :=
  let t := s.slots.get SlotTab.reset port
  event s (t.next.map fun n => { s with slots := s.slots.set port { t with own := n, next := none } })

/-- The configurations of the booted image. -/
def bootCfgs (s : State) : List PartCfg := (if s.host.bank = 0 then s.flash.bankA else s.flash.bankB).cfgs
/-- Tables on the paths that a partition's tasks use (R19, R140): those of its cores, and the ports of the stacks, on whatever die, where
its extents lie. -/
def tablesOf (cfg : PartCfg) : List Nat :=
  ((cfg.cores.flatMap fun c => (List.range 8).map (slotKey c)) ++
    (cfg.extents.filterMap fun x => stackOf (x * 2 ^ 30)).map stackPort).eraseDups
/-- Live partitions other than `p`. -/
def livePartsBut (s : State) (p : Nat) : List Part := (s.parts.filter fun e => e.1 != p && e.2.live).map (·.2)
/-- The limits of R291, for a partition of this number. -/
def cfgOk (s : State) (cfg : PartCfg) : Bool :=
  let others := (livePartsBut s cfg.num).map (·.cfg)
  let walkSum := fun (d : Nat) => ((cfg :: others).map fun q => q.walk.get 0 d).sum
  decide (cfg.num ≤ 127) && decide (4 ≤ cfg.cores.length ∧ cfg.cores.length ≤ 512) &&
  cfg.cores.eraseDups.length == cfg.cores.length && cfg.cores.all (fun c => decide (c < 512)) &&
  others.all (fun q => q.cores.all fun c => !cfg.cores.contains c) &&
  cfg.extents.all (fun x => (lpaClass (x * 2 ^ 30)).isSome) &&
  cfg.cluUnits.all (fun u => decide (u.1 < 64 ∧ u.2 < 8)) && cfg.dieUnits.all (fun u => decide (u.1 < 4 ∧ u.2 < 16)) &&
  decide (cfg.tcb % 64 = 0) && cfg.granted cfg.tcb 64 && lpaClass cfg.tcb == some 3 &&
  decide (cfg.kmap % 2 ^ 16 = 0 ∧ 0 < cfg.kmap ∧ cfg.kmap < shelfBase) &&
  decide (cfg.peers.length ≤ 4095) && cfg.peers.all (fun e => decide (1 ≤ e.1 ∧ e.1 ≤ 4095 ∧ e.2.1 ≤ 2 ∧ e.2.2 < 2 ^ 16)) &&
  decide (cfg.tenant < 2 ^ 16) &&
  (tablesOf cfg).all (fun t => !(cfg.slots.get [] t).isEmpty && (cfg.slots.get [] t).all fun e => decide (e < 64) &&
    others.all fun q => !(q.slots.get [] t).contains e) &&
  ((cfg.cores.map dieOf).eraseDups).all (fun d => decide (1 ≤ cfg.walk.get 0 d ∧ walkSum d ≤ 64)) &&
  decide (cfg.feat &&& s.host.foffer.get 0 0 = cfg.feat)
/-- Entries of one table after a partition's own have been replaced: an owner is held as number plus 1. -/
def ownEntries (m : KV Nat) (p : Nat) : List Nat → KV Nat
  | [] => m
  | e :: rest => ownEntries (m.set e (p + 1)) p rest
/-- The tables a configuration writes wait for the next frame. -/
def writeTables (cfg : PartCfg) : List Nat → State → State
  | [], s => s
  | t :: rest, s =>
    let v := s.slots.get SlotTab.reset t
    let base := ((v.next.getD v.own).filter fun e => e.2 != cfg.num + 1)
    writeTables cfg rest { s with slots := s.slots.set t { v with next := some (ownEntries base cfg.num (cfg.slots.get [] t)) } }
/-- Kloty's routes and ingress entries of a partition (R313, R318). -/
def writeRoutes (s : State) (cfg : PartCfg) : State :=
  let keep := s.fabric.ingress.filter fun e => e.2 != cfg.num + 1
  { s with fabric := { s.fabric with
    routes := cfg.routes.foldl (fun m e => m.set e.1 e.2) s.fabric.routes
    ingress := cfg.ingress.foldl (fun m e => m.set (e.1 * 2 ^ 16 + e.2) (cfg.num + 1)) keep } }
/-- New routes re-form the collectives whose port they change (R322). -/
def setRoutes (s : State) (cfg : PartCfg) : State := reformMoved s (writeRoutes s cfg)
/-- Cores belong to a partition; no static tick is due of the time when they had none (R340); every context is at level U but the
supervisor's (R254). -/
def ownCores (p : Nat) (control : Nat) : List Nat → State → State
  | [], s => s
  | c :: rest, s =>
    let s := s.modCore c fun k => { k with part := p, ticks := Nat.max k.ticks (s.ptime / 1000) }
    let s := [0, 1, 2, 3].foldl (fun s x => s.modCtx c x fun k => { k with level := if c = control ∧ x = 0 then 1 else 0 }) s
    ownCores p control rest s
/-- Virtual address of the TCB in the supervisor's space (R288). -/
def PartCfg.tcbVa (cfg : PartCfg) : Nat := cfg.kmap + cfg.tcb % kmapSize
/-- The supervisor's context starts at its text with its argument block in `g1`, whose first dword Kloty has made the TCB's address
(R254, R291; DESIGN CHOICE, log entry 5). -/
def startSupervisor (s : State) (cfg : PartCfg) : State :=
  let c := cfg.control
  let s := tryWrite s cfg.num cfg.args (toBytes 8 cfg.tcbVa)
  let info := { TaskInfo.none with textVa := cfg.text, textSz := cfg.textSz }
  let k : Ctx := { Ctx.reset with
    status := .suspended, level := 1, info := info, regs := { Regs.start with g := [(1, BitVec.ofNat 64 cfg.args)] } }
  makeReady (s.setCtx c 0 k) c 0
/-- The argument block's memory takes no request now (R313, R334). -/
def argsWait (s : State) (cfg : PartCfg) : Bool := waitsAt s cfg.num cfg.control cfg.args
/-- PARTITION_CREATE: the numbered configuration, where every limit of R291 holds; not while the stack of the control block or of the
argument block retrains (R334) or the cores are held (R343, R353). -/
def execPartitionCreate (n : Nat) (s : State) : Out :=
  event s (
    match (bootCfgs s).find? (fun q => q.num == n) with
    | none => none
    | some cfg =>
      if s.host.stage ≠ 15 || !s.host.negok || (s.part n).live || !cfgOk s cfg || stackPaused s cfg.tcb || startsHeld s then none
      else
        let s := s.setPart n { Part.none with live := true, cfg := cfg }
        let s := readTcb (ownCores n cfg.control cfg.cores s) n
        let s := setRoutes (writeTables cfg (tablesOf cfg) s) cfg
        if argsWait s cfg then none else some (startSupervisor s cfg))

/-- Cores that a change affects: all of them where the grants change, otherwise those gained and lost. -/
def affected (old new : PartCfg) : List Nat :=
  let same := old.extents == new.extents && old.cluUnits == new.cluUnits && old.dieUnits == new.dieUnits
  (old.cores ++ new.cores).eraseDups.filter fun c => !same || !old.cores.contains c || !new.cores.contains c
/-- A core holds no task; the context of a supervisor that stays does not count. -/
def coreEmpty (s : State) (control c : Nat) : Bool :=
  (s.core c).lq.isEmpty && [0, 1, 2, 3].all fun x => (c == control && x == 0) || (s.ctx c x).status == .empty
/-- The control core whose supervisor stays; none (512) where the control core itself changes. -/
def staying (old new : PartCfg) : Nat := if new.control = old.control then old.control else 512
/-- The change takes effect; a root that it takes out of the grant walks no more (R288); a new control core is to start its supervisor. -/
def applyChange (s : State) (p : Nat) (new : PartCfg) : State :=
  let old := (s.part p).cfg
  let s := dropTlb s (fun _ => true) fun e => e.part == p
  let s := (old.cores.filter fun c => !new.cores.contains c).foldl (fun s c => s.modCore c fun k => { k with part := 0 }) s
  let ok := (s.part p).tcbOk && new.granted (s.part p).root (tableSize 3)
  let s := s.modPart p fun q => { q with cfg := new, change := none, tcbOk := ok }
  let fresh := if new.control = old.control then new.cores.filter fun c => !old.cores.contains c else new.cores
  let s := ownCores p new.control fresh s
  setRoutes (writeTables new (tablesOf old ++ tablesOf new).eraseDups s) new
/-- The supervisor of a new control core starts, once its argument block can be written. -/
def afterChange (s : State) (old new : PartCfg) : Option State :=
  if new.control = old.control then some s else if argsWait s new then none else some (startSupervisor s new)
/-- PARTITION_CHANGE: Kloty's new configuration is noted, and takes effect once every affected core is empty. -/
def execPartitionChange (part : Nat) (s : State) : Out :=
  let q := s.part part
  event s (
    if !q.live || startsHeld s then none
    else match q.change with
      | some new => if (affected q.cfg new).all (coreEmpty s (staying q.cfg new)) then afterChange (applyChange s part new) q.cfg new else none
      | none =>
        match (bootCfgs s).find? (fun c => c.num == part && c != q.cfg) with
        | some new => if cfgOk s new then some (s.modPart part fun q => { q with change := some new }) else none
        | none => none)

end Sys2Proof.Machine
end

