-- ==== Sys2Proof/Machine/Power.lean ====
section
/-!
DEFINITION. Gears, power, heat, wear and saves (R330 to R344, R353): the events of Kloty's controllers and of the board.
-/

namespace Sys2Proof.Machine

open Sys2Proof

/-! ### Changes of gear (R330, R331, R340) -/

/-- The gear a core changes to at the next boundary of its active context: none where its rails stand right. -/
def gearWanted (s : State) (c : Nat) : Option Nat :=
  let k := s.core c
  match k.active with
  | none => none
  | some x => if k.changing.isNone && k.rails != k.curOf x && !k.halted then some (k.curOf x) else none
/-- GEAR_CHANGE: for the active context. -/
def execGearChange (core : Nat) (s : State) : Out :=
  event s ((gearWanted s core).map fun g => s.modCore core fun k => { k with changing := some (g, k.active.getD k.last, 0) })
/-- A context is resident as active from when it becomes ready until it becomes empty (R361). -/
def isResident (s : State) (c x : Nat) : Bool := (s.ctx c x).holds && (s.ctx c x).resident
/-- The context that a core's static ticks are charged to: the active one, or the most recently active; where that one has become
empty, the lowest resident one (DESIGN CHOICE, log entry 15); none where no context is resident. -/
def residentCtx (s : State) (c : Nat) : Option Nat :=
  let k := s.core c
  match k.active with
  | some x => some x
  | none => if isResident s c k.last then some k.last else (k.ctxs.find? fun e => isResident s c e.1).map (·.1)
/-- A charge to a core's resident-as-active context. -/
def chargeResident (s : State) (c w : Nat) : State :=
  match residentCtx s c with
  | some x => s.charge c x w
  | none => s
/-- GEAR_CHANGE_DONE: the rails hold the new gear; the cycles of the change are charged at the gear that was left to the context it is
made for, but for those while it was suspended (R361). -/
def execGearChangeDone (core : Nat) (s : State) : Out :=
  event s (
    match (s.core core).changing with
    | none => none
    | some (g, x, done) =>
      let k := s.ctx core x
      let s := if k.holds && !k.busy && k.status != .suspended then chargeGear s core x done else s
      some (s.modCore core fun k => { k with rails := g, changing := none }))
/-- STATIC_TICK: `PTIME` has crossed the core's next multiple of 1,000 ns. -/
def execStaticTick (core : Nat) (s : State) : Out :=
  let k := s.core core
  let s := chargeResident s core (weight k.rails 13)
  let s := s.modCore core fun k => { k with ticks := k.ticks + 1 }
  .next { s with ptime := Nat.max s.ptime (1000 * (k.ticks + 1)) % 2 ^ 64 }

/-! ### The cap controller (R335, R346) -/

/-- CAPG of a core, within the hold on its die (R336). -/
def setCapg (s : State) (c g : Nat) : State :=
  s.modCore c fun k => { k with capg := if s.power.hold.get false (dieOf c) then Nat.min g 1 else g }
def lowerCapg (s : State) (c : Nat) : State := setCapg s c ((s.core c).capg - 1)
def raiseCapg (s : State) (c : Nat) : State := setCapg s c (Nat.min 3 ((s.core c).capg + 1))
/-- Energy of a partition over the last 100 µs: the charges of the last 25 steps. -/
def Part.energy (p : Part) : Nat := p.window.sum
/-- Shares of the live partitions, in watts. -/
def shareSum (s : State) : Nat := ((s.parts.filter fun e => e.2.live).map fun e => e.2.cfg.share).sum
/-- What the cap leaves for partitions, in watts: 0.45 kW are reserved. -/
def capRest (s : State) : Nat := 10 * s.power.cap - 450
/-- A partition's share in pJ over 100 µs, times the sum of shares by which it is scaled. -/
def shareScaled (s : State) (p : Part) : Nat × Nat :=
  if shareSum s > capRest s then (p.cfg.share * capRest s * 10 ^ 8, shareSum s) else (p.cfg.share * 10 ^ 8, 1)
def overShare (s : State) (p : Part) : Bool := let h := shareScaled s p; decide (p.energy * h.2 > h.1)
def underShare (s : State) (p : Part) : Bool := let h := shareScaled s p; decide (10 * p.energy * h.2 < 9 * h.1)
/-- The window takes the charges since the last step. -/
def rollWindow (p : Part) : Part := { p with window := (p.charged :: p.window).take 25, charged := 0 }
/-- Steps 1 and 2 on one partition; a lowering waits 25 steps for the next, a raise needs 250 steps below. -/
def controlPart (s : State) (n : Nat) : State :=
  let p := s.part n
  if !p.live then s
  else if overShare s p then
    let s := s.modPart n fun q => { q with below := 0 }
    if s.capCtl < p.lowerAt then s
    else (p.cfg.cores.foldl lowerCapg s).modPart n fun q => { q with lowerAt := s.capCtl + 25 }
  else if underShare s p then
    if p.below + 1 ≥ 250 then (p.cfg.cores.foldl raiseCapg s).modPart n fun q => { q with below := 0 }
    else s.modPart n fun q => { q with below := q.below + 1 }
  else s.modPart n fun q => { q with below := 0 }
/-- The module's power exceeds the cap: energy of all partitions over 100 µs with the reserve. -/
def overCap (s : State) : Bool :=
  decide (((s.parts.filter fun e => e.2.live).map fun e => e.2.energy).sum + 450 * 10 ^ 8 > 10 * s.power.cap * 10 ^ 8)
/-- Step 3: over the cap for 20 µs. -/
def controlModule (s : State) : State :=
  let n := if overCap s then s.power.overSince + 1 else 0
  let s := { s with power := { s.power with overSince := n } }
  if n ≥ 5 then (((List.range 512).filter fun c => decide ((s.core c).capg ≥ 2)).foldl lowerCapg s) else s
/-- CAP_CONTROLLER_STEP. -/
def execCapControllerStep (s : State) : Out :=
  let s : State := { s with
    capCtl := s.capCtl + 1
    power := { s.power with cap := s.power.capNext.getD s.power.cap, capNext := none }
    parts := s.parts.map fun e => (e.1, rollWindow e.2) }
  .next (controlModule ((s.parts.map (·.1)).foldl controlPart s))

/-! ### Heat (R336) -/

/-- THERMAL_HOLD: the die's cores are held at neap+ or lower. -/
def execThermalHold (die : Nat) (s : State) : Out :=
  let s := { s with power := { s.power with hold := s.power.hold.set die true } }
  .next (((List.range 512).filter fun c => dieOf c == die).foldl (fun s c => setCapg s c (s.core c).capg) s)
/-- THERMAL_RELEASE. -/
def execThermalRelease (die : Nat) (s : State) : Out := .next { s with power := { s.power with hold := s.power.hold.erase die } }

/-! ### Droop, HBM4 and ballast (R333, R334, R337) -/

/-- DROOP_TRIP: a stretch changes physical time alone. -/
def execDroopTrip (cluster : Nat) (s : State) : Out := .next { s with power := { s.power with droop := s.power.droop.set cluster true } }
/-- DROOP_RECOVERY. -/
def execDroopRecovery (cluster : Nat) (s : State) : Out := .next { s with power := { s.power with droop := s.power.droop.erase cluster } }
def State.modStack (s : State) (n : Nat) (f : Stack → Stack) : State := { s with hbmStacks := s.hbmStacks.set n (f (s.hbmStacks.get Stack.reset n)) }
/-- HBM_FREQUENCY_CHANGE: a change of state pauses the stack. -/
def execHbmFrequencyChange (stack freq : Nat) (s : State) : Out :=
  event s (
    if stack ≥ 12 || freq > 3 || (s.hbmStacks.get Stack.reset stack).freq == freq then none
    else some (s.modStack stack fun t => { t with freq := freq, paused := true }))
/-- What the device owes, and the `TRCCTL`s that are pending, go on as far as their memory takes requests (R313, R334). -/
def catchUp (s : State) : State := (s.parts.map (·.1)).foldl payTraces (payOwed s)
/-- Held entries and records of the partitions are posted, as far as they can be (R281). -/
def postAll (s : State) : State :=
  ((s.parts.filter fun e => e.2.live).map (·.1)).foldl (fun s p => recFlush (ringFlush s p) p) s
/-- RETRAINING_PAUSE_END: what has waited for the stack goes on (R334). -/
def execRetrainingPauseEnd (stack : Nat) (s : State) : Out :=
  event s (if stack ≥ 12 then none else some (postAll (catchUp (s.modStack stack fun t => { t with paused := false }))))
/-- HBM4_REFRESH: banks are blocked briefly, which changes physical time alone. -/
def execHbm4Refresh (stack : Nat) (s : State) : Out := event s (if stack ≥ 12 then none else some s)
/-- The fall of the estimate allowed in 64 ns, in 1/25 pJ: 1/250 of 8 cores times 1,800 pJ times 153.6 cycles. -/
def ballastFall : Nat := 221184
/-- What the record of a ballast event holds: cluster, starting `PTIME`, duration in ns, energy in pJ (R337; their places: DESIGN
CHOICE, log entry 27). -/
def ballastRecord (s : State) (cluster run : Nat) : List Byte :=
  let start := s.power.ballastAt.get 0 cluster
  [cluster, start, s.ptime - start, run / 25].flatMap (toBytes 8)
/-- BALLAST_ESTIMATE: the estimate follows what was issued, and falls along the line at most; ballast makes up the rest, for at most
20 µs, and its end is logged. -/
def execBallastEstimate (cluster : Nat) (s : State) : Out :=
  let s := s.sampled
  let w := 25 * s.power.issued.get 0 cluster
  let line := s.power.estimate.get 0 cluster - ballastFall
  let run := s.power.ballast.get 0 cluster
  let q := { s.power with issued := s.power.issued.erase cluster }
  let last := run ≠ 0 ∧ s.ptime - s.power.ballastAt.get 0 cluster ≥ 20000
  .next (
    if w < line ∧ ¬last then { s with power := { q with
      estimate := q.estimate.put 0 cluster line
      ballast := q.ballast.put 0 cluster (run + (line - w))
      ballastAt := if run = 0 then q.ballastAt.set cluster s.ptime else q.ballastAt } }
    else
      let q := { q with estimate := q.estimate.put 0 cluster w, ballast := q.ballast.erase cluster, ballastAt := q.ballastAt.erase cluster }
      if run = 0 then { s with power := q } else { s with power := q }.logRecord (ballastRecord s cluster run))

/-! ### Wear (R342) -/

/-- A swing of at least `lim` counts in counter `n`. -/
def countSwing (deg die : Nat) (m : KV Nat) (n lim : Nat) : KV Nat :=
  if deg ≥ lim then m.put 0 (3 * die + n) (satCount (m.get 0 (3 * die + n))) else m
/-- WEAR_SWING. -/
def execWearSwing (die deg : Nat) (s : State) : Out :=
  let m := countSwing deg die (countSwing deg die (countSwing deg die s.power.wear 0 20) 1 40) 2 60
  event s (if die ≥ 4 then none else some { s with power := { s.power with wear := m } })
/-- WEAR_FLASH_WRITE. -/
def execWearFlashWrite (s : State) : Out := .next { s with flash := { s.flash with wear := s.power.wear } }
/-- Interfaces that a boot stage trains, with the stage (R350): 6 UCIe links, 12 HBM4 stacks, the PCI Express link, 4 CXL ports,
24 UALink ports. -/
def interfaces (stage : Nat) : List Nat :=
  (List.range (match stage with | 4 => 6 | 5 => 12 | 6 => 1 | 7 => 4 | 8 => 24 | _ => 0)).map (100 * stage + ·)
/-- A fresh training record of an interface. -/
def trainRecord (s : State) (i : Nat) : State :=
  { s with tick := s.tick + 1, flash := { s.flash with records := s.flash.records.set i ⟨true, true, Config.tempBand s.tick⟩ } }
/-- ORDERLY_SHUTDOWN: wear counters and training records go to the flash (R342, R350). -/
def execOrderlyShutdown (s : State) : Out :=
  let s := ([4, 5, 6, 7, 8].flatMap interfaces).foldl trainRecord s
  .next { s with flash := { s.flash with wear := s.power.wear } }

/-! ### Saves (R343, R344, R353) -/

/-- The contexts of the task cores that SUSPEND would stop. -/
def stoppable (s : State) : List (Nat × Nat) :=
  s.cores.flatMap fun c =>
    if c.1 ≥ 512 then []
    else (c.2.ctxs.filter fun x => (x.2.status == .ready || x.2.status == .frozen) && !x.2.busy).map fun x => (c.1, x.1)
def stopAll (s : State) (l : List (Nat × Nat)) : State := l.foldl (fun s p => suspendCmd s p.1 p.2) s
/-- The contexts that a save has stopped go on as they were. -/
def resumeAll (s : State) (l : List (Nat × Nat)) : State :=
  l.foldl (fun s p => if (s.ctx p.1 p.2).status = .suspended ∧ (s.ctx p.1 p.2).busy = false then goOn s p.1 p.2 else s) s
/-- Memory that a save holds: HBM4 and scratchpads. -/
def savedByte (ga : Nat) : Bool := decide (ga < 12 * 2 ^ 36) || decide (2 ^ 70 ≤ ga)
/-- Tasks with an access that a peer or shelf switch has not acknowledged. -/
def unackedTasks (s : State) : List Nat :=
  ((s.ops.filter fun a => a.unacked || a.kind.reaches.any (leadsFar s a.part a.core)).map (·.task)).eraseDups
/-- The largest image a core has (R258). -/
def coreImageMax : Nat := imageMax true
/-- Bytes of a full checkpoint: core state at its largest, every scratchpad, all HBM4, the marker (R353). -/
def checkpointLen : Nat := 512 * coreImageMax + 64 * 2 ^ 23 + 4 * 2 ^ 26 + 12 * stackBytes + 64
/-- A save of the state as it stands, with its marker (R343, R344, R353).  Where in the persistent regions it stands the spec does not say:
the model keeps it beside memory (DESIGN CHOICE, log entry 50). -/
def snapshot (s : State) (gen ptime len : Nat) (ok : Bool) : Snap :=
  { sig := 0x4757454D, gen := gen, ptime := ptime, len := len, digestOk := ok, cores := s.cores, parts := s.parts
    mem := s.mem.filter fun e => savedByte e.1
    poison := s.poison.filter fun l => savedByte (64 * l)
    races := s.races, locKnow := s.locKnow, hbmStacks := s.hbmStacks, colls := s.colls, images := s.images, owed := s.owed
    ops := s.ops, tasks := s.tasks, unusable := unackedTasks s }
/-- CKSTAT's state moves, which vector 2 tells (R345). -/
def setCkst (s : State) (st : Nat) : State := { s with host := { s.host with ckst := st } }.raise 2
/-- The bytes of the persistent regions in force (R16, R352). -/
def safeBytes (s : State) : Nat := (s.host.safe.map fun r => r.2).sum * 2 ^ 30
/-- EMERGENCY_SAVE: every core stops, and what R343 lists is saved with its marker, unless power goes first (R344); a checkpoint in
progress is aborted.  With no persistent region in force, or one too small, nothing is saved (R352). -/
def execEmergencySave (s : State) : Out :=
  event s (
    if s.power.emergency then none
    else
      let s := if s.host.ckst = 1 then setCkst (resumeAll s s.host.resumeList) 3 else s
      let s := s.sampled
      let snap := snapshot s ((s.host.ckgen + 1) % 2 ^ 32) s.ptime (Config.saveLen s.tick) (Config.markerOk s.tick)
      let s := stopAll { s with tick := s.tick + 1 } (stoppable s)
      let kept := if safeBytes s = 0 ∨ snap.len > safeBytes s then none else some snap
      some { s with emergency := kept, power := { s.power with emergency := true }, host := { s.host with resumeList := [] } })
/-- Memory that outlives the module's power: the host's, that of other modules, not shelf memory (R275, R299), and the persistent
regions of the second tier in force (R16, R101, R352). -/
def keptByte (s : State) (shelf : List Nat) (ga : Nat) : Bool :=
  (decide (ga < 2 ^ 48) && match lpaClass ga with
    | some 7 => true
    | some 4 => let g := (ga - tierBase) / 2 ^ 30
      s.host.safe.any fun r => decide (r.1 ≤ g ∧ g < r.1 + r.2)
    | _ => false) ||
  (match destOf ga with | some d => !shelf.contains d | none => false)
/-- Shelf switches that a partition's peer table names. -/
def shelfDests (s : State) : List Nat := s.parts.flatMap fun e => (e.2.cfg.peers.filter fun r => r.2.1 == 2).map fun r => r.2.2
/-- POWER_REMOVAL: what is left is the flash, the safe tier, and memory that is not the module's. -/
def execPowerRemoval (s : State) : Out :=
  let kept := keptByte s (shelfDests s)
  .next { State.reset with
    powered := false, flash := s.flash, checkpoint := s.checkpoint, emergency := s.emergency, inputs := s.inputs, tick := s.tick,
    mem := s.mem.filter fun e => kept e.1, poison := s.poison.filter fun l => kept (64 * l) }
/-- A part of an unusable task goes: a running one ends, one that waits leaves its launch queue, one that is out in an image leaves its
near-memory ranges (R96, R344). -/
def abortPart (task : Nat) (s : State) (p : TaskPart) : State :=
  match p.state with
  | 0 => s.modCore p.core fun k => { k with lq := k.lq.filter fun e => e.task != task }
  | 1 => endTask s p.core p.ctx true
  | 2 => clearBusy s (s.images.flatMap fun im => let k := im.ctxs.get Ctx.reset p.ctx
      if im.core = p.core ∧ k.info.task = task then k.nmUnfenced else [])
  | _ => s
/-- A task that the save marks unusable is aborted, with every part of it that has not ended (R344). -/
def abortTask (s : State) (task : Nat) : State :=
  let s := (s.tasks.find? fun t => t.id == task).elim s fun t => t.parts.foldl (abortPart task) s
  let gone := fun (p : TaskPart) => if p.state = 0 ∨ p.state = 2 then { p with state := 4 } else p
  { s with tasks := s.tasks.map fun t => if t.id = task then { t with parts := t.parts.map gone } else t }
/-- A context as it resumes after a restart: a frozen one tests its dependence again, one that idles goes on idling (R274). -/
def wakeCtx (k : Ctx) : Ctx :=
  if k.status = .frozen ∧ (k.dep.filter Dep.isIdle).isNone then { k with status := .ready, dep := none } else k
/-- A core as it resumes: translations and a change of gear are gone, the reliability counters and the ticks are those of this
power-on (R329, R340). -/
def wakeCore (now : Core) (ticks : Nat) (k : Core) : Core :=
  { k with ctxs := k.ctxs.map (fun x => (x.1, wakeCtx x.2)), active := none, tlb := [], changing := none, pin := none, ras := now.ras, ticks := ticks }
/-- A stack as it resumes: busy ranges and queue are saved, the frequency is that of this power-on. -/
def wakeStack (now t : Stack) : Stack := { t with freq := now.freq, paused := now.paused }
/-- An operation that no target has acknowledged, of an unusable task or of a supervisor, which holds no task (number 0). -/
def givenUp (unusable : List Nat) (a : Async) : Bool := a.unacked && unusable.contains a.task
/-- What was under way is issued again (R343); of an unusable task, what no target has acknowledged is given up (R344). -/
def wakeOps (unusable : List Nat) (l : List Async) : List Async :=
  (l.filter fun a => !(givenUp unusable a && a.task != 0)).map fun a => { a with unacked := false }
/-- What a supervisor has given up so ends in the peer-unreachable fault (R344; DESIGN CHOICE, log entry 50). -/
def failGivenUp (unusable : List Nat) (l : List Async) (s : State) : State :=
  (l.filter fun a => givenUp unusable a && a.task == 0).foldl (fun s a => failOp s a (goneCause a.va)) s
/-- A partition as it resumes: the cap controller starts anew with this power-on (R335). -/
def wakePart (p : Part) : Part := { p with window := [], charged := 0, lowerAt := 0, below := 0 }
/-- The state of a save is in force again; cores that it does not hold keep their counters (R329), and a hold on a die bounds CAPG (R336).
-/
def restoreSnap (s : State) (n : Snap) (unusable : List Nat) : State :=
  let mem := (s.mem.filter fun e => !savedByte e.1).foldl (fun m e => m.put 0 e.1 e.2) n.mem
  let top := fun (l : List Nat) => l.foldl Nat.max 0
  let s := { s with
    cores := n.cores.foldl (fun m c => m.set c.1 (wakeCore (s.core c.1) (s.ptime / 1000) c.2)) s.cores
    parts := n.parts.map fun e => (e.1, wakePart e.2)
    mem := mem, cluTlb := [], owed := n.owed
    poison := n.poison ++ s.poison.filter fun l => !savedByte (64 * l)
    races := n.races, locKnow := n.locKnow, colls := n.colls, images := n.images
    hbmStacks := n.hbmStacks.map fun e => (e.1, wakeStack (s.hbmStacks.get Stack.reset e.1) e.2)
    ops := wakeOps unusable n.ops, tasks := n.tasks
    nextId := Nat.max s.nextId (top (n.ops.map (·.id)) + top (n.tasks.map (·.id)) + top (n.colls.map (·.id)) + 1) }
  let s := (n.parts.filter fun e => e.2.live).foldl (fun s e => setRoutes (writeTables e.2.cfg (tablesOf e.2.cfg) s) e.2.cfg) s
  let s := failGivenUp unusable n.ops (unusable.foldl abortTask s)
  let s := (n.cores.map (·.1)).foldl (fun s c => setCapg s c (s.core c).capg) (payOwed s)
  (n.cores.map (·.1)).foldl pickNext s
/-- RESTART_RESTORE (R344): once the features are negotiated, for no partition lives before (R349), and not while a checkpoint holds the
cores (R353). -/
def execRestartRestore (s : State) : Out :=
  let last := (s.checkpoint.map (·.gen)).getD 0
  let marked := fun (n : Snap) => n.sig == 0x4757454D && n.digestOk && n.gen == (last + 1) % 2 ^ 32
  event s (
    if s.host.stage ≠ 15 || !s.host.negok || s.parts.any (fun e => e.2.live) || startsHeld s then none
    else match s.emergency.filter marked with
      | some n => some { restoreSnap s n n.unusable with emergency := none }
      | none => s.checkpoint.map fun n => restoreSnap s n [])

end Sys2Proof.Machine
end

