-- ==== Sys2Proof/Machine/HostSide.lean ====
section
/-!
DEFINITION. Bring-up, the host link, checkpoints and attestation (R345 to R355).
-/

namespace Sys2Proof.Machine

open Sys2Proof

/-! ### Boot (R350 to R352, R354) -/

/-- POWER_ON: everything but the flash, the safe tier and memory that is not the module's is as after module power-on. -/
def execPowerOn (s : State) : Out := event s (if s.powered then none else some { s with powered := true })
/-- Stages that must have ended before a stage begins. -/
def stageNeeds (n : Nat) : List Nat :=
  match n with | 1 => [] | 2 => [1] | 3 => [1] | 4 => [3] | 5 => [3] | 6 => [3] | 7 => [6] | 8 => [4] | _ => [5, 7]
/-- The rollback floor in force: one whose MAC or identity fails counts as the highest floor recorded in either bank. -/
def floorOf (f : Flash) : Nat := if f.macOk && f.pufOk then f.floor else Nat.max f.bankA.floor f.bankB.floor
def Bank.fit (b : Bank) (floor : Nat) : Bool := b.keyOk && b.sigOk && b.digestOk && decide (b.version ≥ floor)
/-- The bank the ROM boots: of two that qualify the higher version, bank A where they are equal (DESIGN CHOICE, log entry 17). -/
def bootBank (f : Flash) : Option Nat :=
  let n := floorOf f
  match f.bankA.fit n, f.bankB.fit n with
  | true, true => some (if f.bankB.version > f.bankA.version then 1 else 0)
  | true, false => some 0
  | false, true => some 1
  | false, false => none
def State.bank (s : State) : Bank := if s.host.bank = 0 then s.flash.bankA else s.flash.bankB
/-- Stage 1: the bank, or the fatal error; Kloty runs on the housekeeping cores at level F (R254). -/
def bootRom (s : State) : State :=
  match bootBank s.flash with
  | none => { s with host := { s.host with fatal := true, fcode := 1 } }.raise 0
  | some b =>
    let s := { s with host := { s.host with bank := b, ended := [1] } }
    [512, 513, 514, 515].foldl (fun s c => [0, 1, 2, 3].foldl (fun s x => s.modCtx c x fun k => { k with level := 2 }) s) s
/-- The slot of the signature index that counts: of the valid ones, that with the higher sequence number (R355). -/
def Flash.slot (f : Flash) : Option IdxSlot :=
  match f.idx0.valid, f.idx1.valid with
  | true, true => some (if f.idx1.seq > f.idx0.seq then f.idx1 else f.idx0)
  | true, false => some f.idx0
  | false, true => some f.idx1
  | false, false => none
/-- Stage 2: the next XMSS index is the slot's reserved-to value; with no valid slot no index is left (DESIGN CHOICE, log entry 16). -/
def xmssNext (f : Flash) : Nat := (f.slot.map (·.upTo)).getD (2 ^ 20)
/-- A stored training record serves: its digest and its settings hold, and its band is within one step of now's (R350). -/
def TrainRec.serves (r : TrainRec) (now : Nat) : Bool := r.digestOk && r.linkOk && decide (now ≤ r.band + 1 ∧ r.band ≤ now + 1)
/-- An interface is trained from its stored record, or in full, which SLOWBOOT tells and a fresh record keeps. -/
def trainOne (s : State) (i : Nat) : State :=
  if (s.flash.records.find i).any fun r => r.serves (Config.tempBand s.tick) then { s with tick := s.tick + 1 }
  else let s := trainRecord s i; { s with host := { s.host with slow := true } }
/-- A persistent region lies on trained expanders that report persistent capacity with a flush on power loss (R352). -/
def regionOk (f : Flash) (r : Nat × Nat) : Bool :=
  let base := fun (p : Nat) => (f.exps.take p).sum
  decide (r.1 + r.2 ≤ base 4 ∧ (r.1 + r.2) * 2 ^ 30 ≤ tierBytes) &&
  (List.range 4).all fun p => decide (r.1 + r.2 ≤ base p ∨ base (p + 1) ≤ r.1) || (f.persist.contains p && !f.expBad.contains p)
/-- Stage 7: the expanders that train, and the safe tier; a region that is left out is logged. -/
def placeExpanders (s : State) : State :=
  let all := s.bank.regions
  let ok := all.filter (regionOk s.flash)
  (all.filter fun r => !ok.contains r).foldl (fun s _ => s.logEvent)
    { s with host := { s.host with extLost := s.flash.expBad, safe := ok } }
/-- READY: the features of this revision are offered, the floor rises to the bank's version, and the generation is that of the last
checkpoint in the safe tier (R348, R351, R353). -/
def ready (s : State) : State :=
  let v := s.bank.version
  let up := fun (b : Bank) => { b with ready := true, floor := Nat.max b.floor v }
  let f := s.flash
  let f := if s.host.bank = 0 then { f with bankA := up f.bankA } else { f with bankB := up f.bankB }
  { s with
    tick := s.tick + 1
    flash := { f with floor := Nat.max (floorOf f) v }
    host := { s.host with
      stage := 15, foffer := [(0, 0x3F)], bootMs := Config.bootMs s.tick % 2 ^ 32, ckgen := (s.checkpoint.map (·.gen)).getD 0 } }
/-- What a stage leaves: its interfaces trained, and what it loads. -/
def stageEffect (s : State) (n : Nat) : State :=
  let s := (interfaces n).foldl trainOne s
  match n with
  | 2 => { s with host := { s.host with xmss := xmssNext s.flash } }
  | 3 => { s with
      power := { s.power with cap := s.bank.cap, wear := s.flash.wear }
      host := { s.host with capset := s.bank.cap, bar2 := s.bank.bar2.take 64 } }
  | 7 => placeExpanders s
  | _ => s
/-- BOOT_STAGE_COMPLETE. -/
def execBootStageComplete (stage : Nat) (s : State) : Out :=
  event s (
    if stage = 0 || stage > 9 || s.host.fatal || s.host.ended.contains stage ||
        !(stageNeeds stage).all s.host.ended.contains then none
    else if stage = 1 then
      let s := bootRom s
      some { s with host := { s.host with stage := if s.host.fatal then 0 else 1 } }
    else
      let s := stageEffect s stage
      let s := { s with host := { s.host with ended := s.host.ended ++ [stage], stage := Nat.max s.host.stage stage } }
      some (if s.host.ended.length = 9 then ready s else s))
/-- EXPANDER_RETURN: the expander of a CXL port has trained after all. -/
def execExpanderReturn (port : Nat) (s : State) : Out :=
  .next { s with host := { s.host with extLost := s.host.extLost.filter (· != port) } }

/-! ### Negotiation and the mailbox (R346, R348, R349) -/

/-- Feature words as the registers hold them: bits that R348 does not list are 0 in every word. -/
def wordMap (l : List Nat) : KV Nat := (List.range l.length).map fun i => (i, if i = 0 then l.getD i 0 % 2 ^ 6 else 0)
/-- FDOOR_SUBMIT: FACC0 to FACC3 are submitted; without effect while a partition exists or the module is not READY. -/
def execFdoorSubmit (f0 f1 f2 f3 : Nat) (s : State) : Out :=
  let l := [f0, f1, f2, f3]
  let s := { s with host := { s.host with facc := wordMap l } }
  .next (
    if s.host.stage ≠ 15 || s.parts.any (fun e => e.2.live) then s
    else
      let ack := (List.range 4).map fun i => (i, s.host.facc.get 0 i &&& s.host.foffer.get 0 i)
      { s with host := { s.host with fack := ack, negok := true } }.raise 1)
/-- CAPSET_WRITE: a value below 60 or above 300 is ignored; a valid one takes effect at the next step of the cap controller, and
at once during a checkpoint (R353). -/
def execCapsetWrite (val : Nat) (s : State) : Out :=
  let v := val % 2 ^ 9
  event s (
    if v < 60 ∨ v > 300 then none
    else
      let s := { s with host := { s.host with capset := v } }
      some (if s.host.ckst = 1 then { s with power := { s.power with cap := v, capNext := none } }
        else { s with power := { s.power with capNext := some v } }))

/-! ### The full checkpoint (R353) -/

/-- A checkpoint begins: every core stops as SUSPEND does; without effect in a safe tier too small for it. -/
def startCheckpoint (s : State) : Option State :=
  if s.host.ckst = 1 || s.host.stage ≠ 15 || s.power.emergency then none
  else if safeBytes s < checkpointLen then some (setCkst s 4)
  else
    let s := s.sampled
    let l := stoppable s
    let s := setCkst (stopAll s l) 1
    some { s with host := { s.host with resumeList := l, stopAt := s.ptime } }
/-- CKCTL as the host has written it: the start bit and the period (R353). -/
def setCkctl (s : State) (start sec : Nat) : State := { s with host := { s.host with ckctl := sec % 2 ^ 16 * 2 ^ 32 + start % 2 } }
/-- CHECKPOINT_START, a write of CKCTL bit 0: a start while one is in progress is ignored. -/
def execCheckpointStart (s : State) : Out :=
  let s := setCkctl s 1 (bits s.host.ckctl 32 16)
  .next ((startCheckpoint s).getD s)
/-- CHECKPOINT_PERIOD: bits 47:32 of CKCTL. -/
def execCheckpointPeriod (sec : Nat) (s : State) : Out := .next (setCkctl s 0 sec)
/-- PERIODIC_CHECKPOINT: while a period is set. -/
def execPeriodicCheckpoint (s : State) : Out := event s (if bits s.host.ckctl 32 16 = 0 then none else startCheckpoint s)
/-- CHECKPOINT_COMPLETE: the marker is written, and the cores resume. -/
def execCheckpointComplete (s : State) : Out :=
  event s (
    if s.host.ckst ≠ 1 then none
    else
      let gen := (s.host.ckgen + 1) % 2 ^ 32
      let s := resumeAll s s.host.resumeList
      let s := { s with
        checkpoint := some (snapshot s gen s.host.stopAt checkpointLen true)
        host := { s.host with ckgen := gen, resumeList := [] } }
      some (setCkst s 2))

/-! ### Attestation (R354, R355) -/

/-- ATTESTATION_REQUEST: a write of ATTREQ. -/
def execAttestationRequest (addr : Nat) (s : State) : Out :=
  .next { s with host := { s.host with attreq := addr % 2 ^ 64, attBusy := true } }
/-- An XMSS index is used: first the slot that does not count takes 64 more, where the reserve has run out. -/
def useIndex (s : State) : State :=
  let f := s.flash
  let cur := f.slot.getD ⟨0, 0, false⟩
  let new : IdxSlot := ⟨cur.upTo + 64, cur.seq + 1, true⟩
  let f := if s.host.xmss < cur.upTo then f else if f.slot == some f.idx1 then { f with idx0 := new } else { f with idx1 := new }
  { s with flash := f, host := { s.host with xmss := s.host.xmss + 1 } }
/-- Status of a report: 0 signed, 2 without an identity, 3 without an index. -/
def reportStatus (s : State) : Nat := if !s.flash.pufOk then 2 else if s.host.xmss ≥ 2 ^ 20 then 3 else 0
/-- What a report says behind the nonce, in places R355 does not state, its digests and its signature free (DESIGN CHOICE, log entry
16): status, bank, floor, FACK0 to FACK3, index. -/
def reportBytes (s : State) : List Byte :=
  let known := ([reportStatus s, s.host.bank, floorOf s.flash] ++ (List.range 4).map (s.host.fack.get 0) ++ [s.host.xmss]).flatMap (toBytes 8)
  known ++ ((List.range 4064).map (Config.reportByte s.tick)).drop known.length
/-- ATTESTATION_REPORT_READY: the report fills the 4 KiB buffer behind the nonce, once identity has been rebuilt or has failed (stage
2); an index is used where it is signed. -/
def execAttestationReportReady (s : State) : Out :=
  event s (
    if !s.host.attBusy || !s.host.ended.contains 2 then none
    else
      let signed := reportStatus s == 0
      let s := s.store (cells (hostLpa s.host.attreq + 32) (reportBytes s)) none
      let s := if signed then useIndex s else s
      some ({ s with tick := s.tick + 1, host := { s.host with attBusy := false } }.raise 3))

/-! ### What the host reads (R346, R353, R356) -/

def State.mstat (s : State) : Nat :=
  let h := s.host
  h.bootMs % 2 ^ 32 * 2 ^ 32 + h.fcode % 2 ^ 16 * 2 ^ 16 + h.slow.toNat * 2 ^ 7 + h.bank % 2 * 2 ^ 6 + h.fatal.toNat * 2 ^ 5 +
    h.negok.toNat * 2 ^ 4 + h.stage % 16
def State.ckstat (s : State) : Nat := s.host.ckgen % 2 ^ 32 * 2 ^ 32 + s.host.ckst % 16
/-- A byte of the module information area: the wear counters, and what the maker has written (DESIGN CHOICE, log entry 60). -/
def State.minfo (s : State) (off : Nat) : Byte :=
  if 0x040 ≤ off ∧ off < 0x070 then (toBytes 4 (s.power.wear.get 0 ((off - 0x040) / 4))).getD (off % 4) 0 else Config.minfoByte off
/-- An 8-byte read of the BAR0 mailbox. -/
def State.mailbox (s : State) (off : Nat) : Nat :=
  let h := s.host
  match off with
  | 0x0000 => s.mstat
  | 0x0008 | 0x0010 | 0x0018 | 0x0020 => h.foffer.get 0 (off / 8 - 1)
  | 0x0028 | 0x0030 | 0x0038 | 0x0040 => h.facc.get 0 (off / 8 - 5)
  | 0x0048 | 0x0050 | 0x0058 | 0x0060 => h.fack.get 0 (off / 8 - 9)
  | 0x0070 => h.capset
  | 0x0078 => h.ckctl
  | 0x0080 => s.ckstat
  | 0x0088 => h.evbase
  | 0x0090 => h.evprod
  | 0x0098 => h.attreq
  | _ => if 0x1000 ≤ off ∧ off + 8 ≤ 0x2000 then ofBytes ((List.range 8).map fun i => s.minfo (off - 0x1000 + i)) else 0

/-! ### Kloty's queue and the host's window (R345, R347) -/

/-- KLOTY_QUEUE_RECORD: the record is logged; its context stays suspended for the supervisor. -/
def execKlotyQueueRecord (die : Nat) (s : State) : Out :=
  event s (
    match (s.part (kloty die)).kq with
    | [] => none
    | _ :: rest => some (s.modPart (kloty die) fun q => { q with kq := rest, tqcons := (q.tqcons + 1) % 2 ^ 64 }).logEvent)
/-- Where a byte of the BAR2 window lies: 64 GiB at most of HBM4 extents that Kloty grants to the host. -/
def barPlace (s : State) (a : Nat) : Option Nat :=
  if a ≥ 2 ^ 36 then none
  else ((s.host.bar2[a / 2 ^ 30]?).map fun x => x * 2 ^ 30 + a % 2 ^ 30).filter fun g => lpaClass g == some 3
/-- HOST_WINDOW_ACCESS: it waits while a stack retrains (R334); in a busy range it does not perform (R96), a write of part of a
poisoned line performs nothing there (R325), and a read returns its bytes, none where it meets such a place (DEDUCED, log entry 53). -/
def execHostWindowAccess (addr : Nat) (write : Bool) (bytes : List Byte) (s : State) : Out :=
  let pairs := (cells addr bytes).filterMap fun b => (barPlace s b.1).map fun g => (g, b.2)
  let free := pairs.filter fun b => !nmBusy s (b.1 / 64)
  event s (
    if pairs.any fun b => stackPaused s b.1 then none
    else if write then (if free.isEmpty then none else some (s.store free none))
    else
      let whole := free.length == bytes.length && !(free.any fun b => s.poisoned (b.1 / 64))
      some { s with host := { s.host with readData := if whole then gather s.mem (free.map (·.1)) else [] } })

end Sys2Proof.Machine
end

