-- ==== Sys2Proof/Machine/Agents.lean ====
section
/-!
DEFINITION. The ports' slot tables at work (R19, R292), and the order in which the machine's agents act where the environment says
nothing (DESIGN CHOICE, log entry 1).
-/

namespace Sys2Proof.Machine

open Sys2Proof

/-- The next event of an operation on the Kloty slow path, or else `f`. -/
def slowOr (w : Slow) (id : Nat) (s : State) (f : Out) : Out :=
  if w.stage = 1 then execSlowPathHandoff id s else if w.stage = 2 then execPageRequestReply id s else f
/-- The next event of a collective's operation. -/
def fireColl (id : Nat) (d : CollDesc) (s : State) : Out :=
  match s.colls.find? fun c => c.ranks.any fun r => r.op == some id with
  | none => execCollRegistration id s
  | some c =>
    if d.op ≤ 1 ∧ c.hop < d.nrank then (if c.viaSwitch && !c.fell then execSwitchResult c.id s else execChainPartialArrival c.id s)
    else execChunkAcknowledged c.id s
/-- The next event of an operation. -/
def fire (s : State) (a : Async) : Out :=
  if a.unacked then execPeerAck a.id s
  else match a.kind with
    | .store _ => execPostedStorePerform a.id s
    | .stamp .. => execStampWrite a.id s
    | .ownStamp .. => execStampWrite a.id s
    | .arrive _ _ cores _ _ => if cores.isEmpty then execStampWrite a.id s else execBarrierArrival a.id s
    | .copy elems _ _ w _ => slowOr w a.id s (if elems.isEmpty then execCopyComplete a.id s else execTransferDataArrival a.id s)
    | .mcast _ _ _ left data _ w =>
      slowOr w a.id s (if data.isNone then execTransferDataArrival a.id s else execMcastDelivery a.id (left.headD 0) s)
    | .monRead .. => execMonarmReadReturn a.id s
    | .atom .. => execAtomicPerform a.id s
    | .beat _ _ refused => if refused then execBeatReoffer a.id s else execBeatArrival a.id s
    | .credit .. => execCreditReturn a.id s
    | .nmcmd _ _ _ taken => if taken.isSome then execNmcmdComplete a.id s else execNmcmdAccept a.id s
    | .nmfence hbmStacks _ => execNmfenceAnswer a.id (hbmStacks.headD 0) s
    | .shalloc .. => execShallocReply a.id s
    | .shfree .. => execShfreeReply a.id s
    | .signal .. => execBarrierArrival a.id s
    | .coll d _ w _ => slowOr w a.id s (fireColl a.id d s)
    | .tlbinv .. => execTlbinvComplete a.id s
    | .save .. => execSaveComplete a.id s
    | .load .. => execLoadComplete a.id s
    | .walk va => execTableWalk a.core va s

/-! ### SLOT_GRANT (R19, R20, R292) -/

/-- Operations waiting at a port, oldest first. -/
def waitingAt (s : State) (port : Nat) : List Async :=
  s.ops.filter fun a => !a.unacked && s.afterDone a && (portsOf s a).contains port && !a.grants.contains port
/-- Which of the waiting requests an entry of a port's table is granted to: the owner's oldest; else, of an owner that lends or a free
entry, the oldest of another lending partition. -/
def grantee {α : Type} (s : State) (port entry : Nat) (l : List (Nat × α)) : Option α :=
  let own := (s.slots.get SlotTab.reset port).own.get 0 entry
  match l.find? fun a => a.1 + 1 == own with
  | some a => some a.2
  | none =>
    if own != 0 && (s.part (own - 1)).cfg.strict then none
    else (l.find? fun a => !(s.part a.1).cfg.strict).map (·.2)
/-- The operation that an entry of a port's table is granted to. -/
def grantOf (s : State) (port entry : Nat) : Option Async :=
  grantee s port entry ((waitingAt s port).map fun a => (a.part, a))
/-- A transfer unit is granted at one of its ports, and moves once it has been granted at each. -/
def grantUnit (s : State) (a : Async) (port : Nat) : Out :=
  let b := { a with grants := port :: a.grants }
  if granted s b then fire (s.putOp b) b else .next (s.putOp b)
/-- SLOT_GRANT: at the ingress port, of the requests that have been accepted there. -/
def execSlotGrant (port entry : Nat) (s : State) : Out :=
  if port = ingressPort then event s ((grantee s port (entry % 64) (s.fabric.arrived.map fun e => (e.1, e))).bind (performArrived s))
  else match grantOf s port (entry % 64) with
    | some a => grantUnit s a port
    | none => .next s

/-- A port that has not granted an operation's next unit, and an entry of its table that is granted to it. -/
def nextGrant (s : State) (a : Async) : Option (Nat × Nat) :=
  ((portsOf s a).filter fun p => !a.grants.contains p).findSome? fun p =>
    let l := (waitingAt s p).map fun b => (b.part, b.id)
    ((List.range 64).find? fun e => grantee s p e l == some a.id).map fun e => (p, e)
/-- The next move of an operation: a grant that its unit still lacks, or its event. -/
def moveOp (id : Nat) (s : State) : Out :=
  match s.findOp id with
  | none => .next s
  | some a =>
    if !s.afterDone a then .next s
    else if granted s a then fire s a
    else match nextGrant s a with
      | some (p, e) => execSlotGrant p e s
      | none => .next s

/-! ### The agents' order (DESIGN CHOICE, log entry 1) -/

/-- Static ticks that `PTIME` has passed. -/
def dueTicks (s : State) : List (State → Out) :=
  (s.cores.filter fun c => decide (c.1 < 512 ∧ c.2.ticks < s.ptime / 1000)).map fun c => execStaticTick c.1
/-- Table entries whose counts have reached their thresholds. -/
def dueCounts (s : State) : List (State → Out) :=
  s.cores.flatMap fun c => (c.2.tlb.filter fun e => e.part == s.partOf c.1 && overCount e).map fun e => execCounterAdd c.1 e.va
/-- Held records that can be posted. -/
def dueRecords (s : State) : List (State → Out) :=
  s.cores.flatMap fun c => (c.2.ctxs.filter fun x => (postHeld s c.1 x.1).isSome).map fun x => execHeldRecordPost c.1 x.1
/-- What comes before any issue, for every core. -/
def dueFirst (s : State) : Option (State → Out) := (dueTicks s ++ dueCounts s ++ dueRecords s).head?
/-- What a core does before its active context issues: its deferred cause, its change of gear (R105, R331). -/
def coreFirst (s : State) (c : Nat) : Option (State → Out) :=
  let k := s.core c
  match k.active with
  | none => none
  | some x =>
    if k.changing.isSome then some (execGearChangeDone c)
    else if !(s.ctx c x).deferred.isEmpty && atBoundary s c x then some (execDeferredCauseTaken c x)
    else (gearWanted s c).map fun _ => execGearChange c
/-- The cores in the order of their turns: the one whose turn it is, then the others. -/
def turns (s : State) : List Nat :=
  let cs := s.cores.map (·.1)
  s.cur :: (cs.filter (fun c => decide (c > s.cur)) ++ cs.filter (fun c => decide (c < s.cur)))
/-- Contexts that stand frozen with a deferred cause or a dependence that is met. -/
def wakes (s : State) : List (State → Out) :=
  s.cores.flatMap fun c => c.2.ctxs.filterMap fun x =>
    if x.2.status != .frozen then none
    else if !x.2.deferred.isEmpty then some (execDeferredCauseTaken c.1 x.1)
    else match x.2.dep with
      | some d => if depMet s c.1 x.1 d then some (if d.isIdle then execIdleWake c.1 x.1 else execContextReady c.1 x.1) else none
      | none => none
/-- An accepted request that some entry of the ingress port's table is granted to (R19, R292, R318). -/
def ingressTurn (s : State) (e : Nat × FabItem) : Bool :=
  (List.range 64).any fun k => grantee s ingressPort k (s.fabric.arrived.map fun e => (e.1, e)) == some e
/-- What has come from the fabric: requests at the ingress port, and items whose turn has come. -/
def arrivals (s : State) : List (State → Out) :=
  ((s.fabric.arrived.filter (ingressTurn s)).map fun e => fun t => event t (performArrived t e)) ++
  (s.fabric.held.map fun i => fun t => .next (drainHeld i.src t.fabric.held.length t))
/-- What the device owes to memory that takes requests again (R313, R334). -/
def debts (s : State) : List (State → Out) :=
  if s.owed.isEmpty && s.parts.all fun p => p.2.tracePend.isEmpty then [] else [fun t => .next (catchUp t)]
/-- Steps of the intakes, the launch queues, the tasks' ends and Kloty's queues. -/
def services (s : State) : List (State → Out) :=
  (s.parts.filterMap fun p =>
    if p.2.serving.isSome || p.2.intake.any (fun e => !e.2.isEmpty) then some (execIntakeStep p.1) else none) ++
  (s.cores.filterMap fun c => if c.2.lq.isEmpty then none else some (execPartStart c.1)) ++
  (s.tasks.flatMap fun t => (if t.causes.isEmpty then [] else [execEndedCauseRecord t.id]) ++ [execTaskComplete t.id]) ++
  (s.parts.filterMap fun p => if p.2.kq.isEmpty then none else some (execKlotyQueueRecord (p.1 - 128)))

end Sys2Proof.Machine
end

