-- ==== Sys2Proof/Machine/LoadStore.lean ====
section
/-!
DEFINITION. The L slot (R159 to R166): scalar, vector, pair and mask loads and stores, gathers, scatters, VJOIN.
-/

namespace Sys2Proof.Machine

open Sys2Proof

/-- A load of one linear range (R161 to R164): the value becomes visible at `i + 4`. -/
def opLoad (va : Iss → Nat) (align n : Nat) (res : Nat → List Res) : Op :=
  { cls := slotClass
    wait := fun i s => loadWait false n (fun i => [va i]) i s
    run := fun i s =>
      match loadAll i s false align n [va i] with
      | .error e => .error e
      | .ok bs => .ok ((res (ofBytes (bs.flatMap id))).foldl (fun s r => i.emit 4 r s) s) }
/-- A store of bytes at one linear address. -/
def opStore (va : Iss → Nat) (align : Nat) (check : Iss → Except Stop Unit) (bytes : Iss → List (Nat × Byte)) : Op :=
  { cls := slotClass
    wait := fun i s => if va i % align = 0 then storeWait i s (storeGas i false (bytes i)) else .ok
    run := fun i s => if va i % align ≠ 0 then i.trap 0x13 (va i) else
      match check i with
      | .error e => .error e
      | .ok _ => storeAll i s false [bytes i] }

/-- The value of `LD` (R161). -/
def ldValue (sz : Nat) (sx : Bool) (x : Nat) : Word :=
  if sx then BitVec.ofInt 64 (sgn x (8 * 2 ^ sz)) else BitVec.ofNat 64 x
def ldAddr (e : Option Nat) (an sz off : Nat) (i : Iss) : Nat := memAddr i e an off 11 1 (2 ^ sz)
def opLd (e : Option Nat) (d an sz : Nat) (sx : Bool) (off : Nat) : Op :=
  opLoad (ldAddr e an sz off) (2 ^ sz) (2 ^ sz) fun x => [.g d (ldValue sz sx x)]
def opSt (e : Option Nat) (gs an sz off : Nat) : Op :=
  opStore (ldAddr e an sz off) (2 ^ sz) (fun _ => .ok ()) fun i => cells (ldAddr e an sz off i) (toBytes (2 ^ sz) (i.regs.rg gs).toNat)

/-- Addresses of the register moves: offset width, unit and sticky step (R112, R162 to R164). -/
def vldAddr (e : Option Nat) (an off : Nat) (i : Iss) : Nat := memAddr i e an off 11 64 256
def vstAddr (e : Option Nat) (an off : Nat) (i : Iss) : Nat := memAddr i e an off 7 64 256
def vldwAddr (e : Option Nat) (an off : Nat) (i : Iss) : Nat := memAddr i e an off 11 64 512
def pldAddr (e : Option Nat) (an off : Nat) (i : Iss) : Nat := memAddr i e an off 16 32 32
def vecOf (tag x : Nat) : VReg := ⟨BitVec.ofNat 2048 x, tag⟩

def opVld (e : Option Nat) (vd an tag off : Nat) : Op := opLoad (vldAddr e an off) 64 256 fun x => [.v vd (vecOf tag x)]
/-- Bytes of the active elements of a register from an address. -/
def maskedCells (va w : Nat) (m : Mask) (bytes : List Byte) : List (Nat × Byte) :=
  ((List.range bytes.length).zip bytes).filterMap fun b => if active m (8 * b.1 / w) then some (va + b.1, b.2) else none
/-- VST (R163): raw stores the whole register, any other tag its active elements. -/
def opVst (e : Option Nat) (vs an tag mk off : Nat) : Op :=
  opStore (vstAddr e an off) 64 (fun i => if tag = 0 then .ok () else checkTag i 0 (i.regs.rv vs) tag) fun i =>
    let bytes := toBytes 256 (i.regs.rv vs).bits.toNat
    if tag = 0 then cells (vstAddr e an off i) bytes else maskedCells (vstAddr e an off i) (tagWidth tag) (i.regs.rm mk) bytes
/-- The tag of a pair (R164). -/
def pairTag (tag : Nat) (blk : Bool) : Nat := if blk then 12 else tag
def opVldw (e : Option Nat) (pr an tag : Nat) (blk : Bool) (off : Nat) : Op :=
  opLoad (vldwAddr e an off) 64 512 fun x =>
    [.v (2 * pr) (vecOf (pairTag tag blk) (x % 2 ^ 2048)), .v (2 * pr + 1) (vecOf (pairTag tag blk) (x >>> 2048))]
def opVstw (e : Option Nat) (pr an tag : Nat) (blk : Bool) (off : Nat) : Op :=
  opStore (vldwAddr e an off) 64
    (fun i => if pairTag tag blk = 0 then .ok () else do
      checkTag i 0 (i.regs.rv (2 * pr)) (pairTag tag blk)
      checkTag i 0 (i.regs.rv (2 * pr + 1)) (pairTag tag blk))
    fun i => cells (vldwAddr e an off i)
      (toBytes 256 (i.regs.rv (2 * pr)).bits.toNat ++ toBytes 256 (i.regs.rv (2 * pr + 1)).bits.toNat)
def opPld (e : Option Nat) (md an off : Nat) : Op :=
  opLoad (pldAddr e an off) 32 32 fun x => [.m md (BitVec.ofNat 256 x)]
def opPst (e : Option Nat) (ms an off : Nat) : Op :=
  opStore (pldAddr e an off) 32 (fun _ => .ok ()) fun i => cells (pldAddr e an off i) (toBytes 32 (i.regs.rm ms).toNat)

/-! ### Gathers and scatters (R165) -/

/-- Active lanes with their addresses. -/
def laneAddrs (e : Option Nat) (vi an mk tag : Nat) (i : Iss) : List (Nat × Nat) :=
  let base : Int := (i.regs.ra an).toNat + (match e with | some x => sgn x 32 | none => 0)
  let v := (i.regs.rv vi).bits.toNat
  let m := i.regs.rm mk
  ((List.range (tagCount tag)).filter (active m)).map fun j => (j, wrapI (base + (elem 32 v j : Nat)) 57)
def opVgth (e : Option Nat) (vd vi an mk tag : Nat) : Op :=
  let n := tagWidth tag / 8
  { cls := slotClass
    wait := fun i s => loadWait true n (fun i => (laneAddrs e vi an mk tag i).map (·.2)) i s
    run := fun i s =>
      match checkTag i 0 (i.regs.rv vi) 3 with
      | .error f => .error f
      | .ok _ =>
        let lanes := laneAddrs e vi an mk tag i
        match loadAll i s true n n (lanes.map (·.2)) with
        | .error f => .error f
        | .ok bs =>
          let got := (lanes.map (·.1)).zip (bs.map ofBytes)
          let old := i.regs.rv vd
          let xs := (List.range (tagCount tag)).map fun j => ((got.find? fun g => g.1 == j).map (·.2)).getD (old.elem tag j)
          .ok (i.emit 4 (.v vd (vreg tag xs)) s) }
/-- One access for each active lane. -/
def laneStores (e : Option Nat) (vs vi an mk tag : Nat) (i : Iss) : List (List (Nat × Byte)) :=
  (laneAddrs e vi an mk tag i).map fun l => cells l.2 (toBytes (tagWidth tag / 8) ((i.regs.rv vs).elem tag l.1))
def opVsct (e : Option Nat) (vs vi an mk tag : Nat) : Op :=
  let n := tagWidth tag / 8
  { cls := slotClass
    wait := fun i s =>
      if (laneAddrs e vi an mk tag i).all (fun l => l.2 % n == 0) then
        storeWait i s (storeGas i true ((laneStores e vs vi an mk tag i).flatMap id)) else .ok
    run := fun i s => do
      checkTag i 0 (i.regs.rv vi) 3
      checkTag i 1 (i.regs.rv vs) tag
      match (laneAddrs e vi an mk tag i).find? (fun l => l.2 % n != 0) with
      | some l => i.trap 0x13 l.2
      | none => storeAll i s true (laneStores e vs vi an mk tag i) }
/-- VJOIN (R87, R166). -/
def opVjoin : Op :=
  { cls := slotClass
    run := fun i s => .ok (s.modRegs i.core i.ctx fun r => { r with vjoins := i.lt :: r.vjoins }) }

def execLd (e : Option Nat) (d an sz : Nat) (sx : Bool) (off : Nat) (s : State) : Out := issueOne (.ld e d an sz sx off) (opLd e d an sz sx off) s
def execSt (e : Option Nat) (gs an sz off : Nat) (s : State) : Out := issueOne (.st e gs an sz off) (opSt e gs an sz off) s
def execVld (e : Option Nat) (vd an tag off : Nat) (s : State) : Out := issueOne (.vld e vd an tag off) (opVld e vd an tag off) s
def execVst (e : Option Nat) (vs an tag mk off : Nat) (s : State) : Out := issueOne (.vst e vs an tag mk off) (opVst e vs an tag mk off) s
def execVldw (e : Option Nat) (pr an tag : Nat) (blk : Bool) (off : Nat) (s : State) : Out :=
  issueOne (.vldw e pr an tag blk off) (opVldw e pr an tag blk off) s
def execVstw (e : Option Nat) (pr an tag : Nat) (blk : Bool) (off : Nat) (s : State) : Out :=
  issueOne (.vstw e pr an tag blk off) (opVstw e pr an tag blk off) s
def execVgth (e : Option Nat) (vd vi an mk tag : Nat) (s : State) : Out := issueOne (.vgth e vd vi an mk tag) (opVgth e vd vi an mk tag) s
def execVsct (e : Option Nat) (vs vi an mk tag : Nat) (s : State) : Out := issueOne (.vsct e vs vi an mk tag) (opVsct e vs vi an mk tag) s
def execVjoin (s : State) : Out := issueOne .vjoin opVjoin s
def execPld (e : Option Nat) (md an off : Nat) (s : State) : Out := issueOne (.pld e md an off) (opPld e md an off) s
def execPst (e : Option Nat) (ms an off : Nat) (s : State) : Out := issueOne (.pst e ms an off) (opPst e ms an off) s

end Sys2Proof.Machine
end

