-- ==== Sys2Proof/Machine/Modular.lean ====
section
/-!
DEFINITION. The modular slot N (R234 to R241): moduli, residue arithmetic, butterflies, the butterfly network.
-/

namespace Sys2Proof.Machine

open Sys2Proof

/-- A source of the N slot carries tag 0, 4 or 11 (R235, R236, R238). -/
def checkRes (i : Iss) (pos : Nat) (v : VReg) : Except Stop Unit :=
  if v.tag = 0 ∨ v.tag = 4 ∨ v.tag = 11 then .ok () else tagFault i v.tag 11 pos
def opQload (k : Bool) (e : Option Nat) (q va : Nat) : Op :=
  { src := srcs e [va]
    cls := slotClass
    run := fun i s => do
      let v := vsrc i e 0 va
      checkRes i 0 v
      .ok (i.emit 2 (if k then .qk q v.bits else .qm q v.bits) s) }
def opQldm (e : Option Nat) (q va : Nat) : Op := opQload false e q va
def opQldk (e : Option Nat) (q va : Nat) : Op := opQload true e q va

/-- Lane `j` of a modulus pair. -/
def modulus (i : Iss) (q j : Nat) : Nat := elem 64 (i.regs.qm.get 0 q).toNat j
/-- A lane's pair is valid (R234). -/
def validMod (q mu : Nat) : Bool := decide (2 ≤ q ∧ q < 2 ^ 62) && mu == 2 ^ (2 * (Nat.log2 q + 1)) / q
/-- The modulus fault names the lowest invalid active lane. -/
def checkMod (i : Iss) (q mk : Nat) : Except Stop Unit :=
  let mu := fun j => elem 64 (i.regs.qk.get 0 q).toNat j
  match (List.range 32).find? (fun j => active (i.regs.rm mk) j && !validMod (modulus i q j) (mu j)) with
  | some j => .error (.trap { code := 0x28, slot := i.slot, info0 := j })
  | none => .ok ()
/-- 32 lanes of 64 bits with inactive ones kept from the destination at issue; N-slot results are not bound-checked (R241). -/
def lanes64 (i : Iss) (vd mk : Nat) (f : Nat → Nat) : List Nat :=
  (List.range 32).map fun j => if active (i.regs.rm mk) j then f j else elem 64 (i.regs.rv vd).bits.toNat j

/-- QADD to QRED (R236): `f q a b c` on canonical residues. -/
def opRes (lat : Nat) (f : Nat → Nat → Nat → Nat → Nat) (mac : Bool) (e : Option Nat) (vd : Nat) (rs : List Nat) (mk q : Nat) : Op :=
  { src := srcs e rs
    cls := slotClass
    run := fun i s => do
      let a := vsrc i e 0 (rs.getD 0 0)
      let b := vsrc i e 1 (rs.getD 1 0)
      checkRes i 0 a
      if rs.length ≤ 1 then .ok () else checkRes i 1 b
      if mac then checkRes i 2 (i.regs.rv vd) else .ok ()
      checkMod i q mk
      let el := fun (v : VReg) j => elem 64 v.bits.toNat j % modulus i q j
      .ok (i.emit lat (.v vd (vreg 11 (lanes64 i vd mk fun j => f (modulus i q j) (el a j) (el b j) (el (i.regs.rv vd) j)))) s) }
def addMod (q a b : Nat) : Nat := (a + b) % q
def subMod (q a b : Nat) : Nat := (a + (q - b % q)) % q
def opQadd (e : Option Nat) (vd va vb mk q : Nat) : Op := opRes 2 (fun q a b _ => addMod q a b) false e vd [va, vb] mk q
def opQsub (e : Option Nat) (vd va vb mk q : Nat) : Op := opRes 2 (fun q a b _ => subMod q a b) false e vd [va, vb] mk q
def opQmul (e : Option Nat) (vd va vb mk q : Nat) : Op := opRes 6 (fun q a b _ => a * b % q) false e vd [va, vb] mk q
def opQmac (e : Option Nat) (vd va vb mk q : Nat) : Op := opRes 6 (fun q a b c => (a * b + c) % q) true e vd [va, vb] mk q
def opQred (e : Option Nat) (vd va mk q : Nat) : Op := opRes 6 (fun _ a _ _ => a) false e vd [va] mk q

/-- QCVT's two directions (R237). -/
def opQcvtQ64I64 (e : Option Nat) (vd va mk q : Nat) : Op :=
  { src := srcs e [va]
    cls := slotClass
    run := fun i s => do
      let a := vsrc i e 0 va
      checkTag i 0 a 4
      checkMod i q mk
      .ok (i.emit 4 (.v vd (vreg 11 (lanes64 i vd mk fun j => (sgn (a.elem 4 j) 64 % (modulus i q j : Int)).toNat))) s) }
def centred (q r : Nat) : Nat := if r ≤ q / 2 then r else wrapI ((r : Int) - q) 64
def opQcvtI64Q64 (e : Option Nat) (vd va mk q : Nat) : Op :=
  { src := srcs e [va]
    cls := slotClass
    run := fun i s => do
      let a := vsrc i e 0 va
      if a.tag = 0 ∨ a.tag = 11 then .ok () else tagFault i a.tag 11 0
      checkMod i q mk
      .ok (i.emit 4 (.v vd (vreg 4 (lanes64 i vd mk fun j => centred (modulus i q j) (a.elem 4 j % modulus i q j)))) s) }

/-- Butterflies (R238): `f q a b w` gives both results. -/
def opFly (f : Nat → Nat → Nat → Nat → Nat × Nat) (e : Option Nat) (vx vy vw mk q : Nat) : Op :=
  { src := srcs e [vx, vy, vw]
    cls := slotClass
    run := fun i s => do
      let a := vsrc i e 0 vx
      let b := vsrc i e 1 vy
      let w := vsrc i e 2 vw
      checkRes i 0 a
      checkRes i 1 b
      checkRes i 2 w
      checkMod i q mk
      let el := fun (v : VReg) j => elem 64 v.bits.toNat j % modulus i q j
      let r := fun j => f (modulus i q j) (el a j) (el b j) (el w j)
      let s := i.emit 7 (.v vx (vreg 11 (lanes64 i vx mk fun j => (r j).1))) s
      .ok (i.emit 7 (.v vy (vreg 11 (lanes64 i vy mk fun j => (r j).2))) s) }
def opQbfly (e : Option Nat) (vx vy vw mk q : Nat) : Op :=
  opFly (fun q a b w => (addMod q a (w * b), subMod q a (w * b))) e vx vy vw mk q
def opQibfly (e : Option Nat) (vx vy vw mk q : Nat) : Op :=
  opFly (fun q a b w => (addMod q a b, subMod q a b * w % q)) e vx vy vw mk q

/-! ### The network (R239 to R241) -/

/-- Bits with a tag, as a checked result: element `j` is checked where `chk j` holds. -/
def emitBits (i : Iss) (lat vd : Nat) (v : VReg) (chk : Nat → Bool) (s : State) : Except Stop State :=
  if v.tag = 0 ∨ v.tag ≥ 11 then .ok (i.emit lat (.v vd v) s)
  else emitV i lat vd v.tag false ((List.range (tagCount v.tag)).map fun j => (v.elem v.tag j, chk j)) s
/-- Width and number of the network's units. -/
def unitWidth (w : Bool) : Nat := if w then 64 else 32
def opBstage (swap : Iss → Nat → Bool) (e : Option Nat) (vd va stg : Nat) (w : Bool) : Op :=
  { src := srcs e [va]
    cls := slotClass
    run := fun i s =>
      let a := vsrc i e 0 va
      let uw := unitWidth w
      let out := (List.range (2048 / uw)).map fun j =>
        let p := j ^^^ 2 ^ stg
        elem uw a.bits.toNat (if swap i (Nat.min j p) then p else j)
      emitBits i 2 vd ⟨BitVec.ofNat 2048 (pack uw out), a.tag⟩ (fun _ => true) s }
def opBperm (e : Option Nat) (vd va mk stg : Nat) (w : Bool) : Op := opBstage (fun i j => active (i.regs.rm mk) j) e vd va stg w
def opBpermi (e : Option Nat) (vd va stg : Nat) (w : Bool) : Op := opBstage (fun _ _ => true) e vd va stg w
def opVxperm (e : Option Nat) (vd va vi mk : Nat) (w : Bool) : Op :=
  { src := srcs e [va, vi]
    cls := slotClass
    run := fun i s => do
      let a := vsrc i e 0 va
      let ix := vsrc i e 1 vi
      checkTag i 1 ix (if w then 4 else 3)
      let uw := unitWidth w
      let n := 2048 / uw
      let m := i.regs.rm mk
      let out := (List.range n).map fun j =>
        if active m j then elem uw a.bits.toNat (elem uw ix.bits.toNat j % n) else elem uw (i.regs.rv vd).bits.toNat j
      let ew := tagWidth a.tag
      emitBits i 8 vd ⟨BitVec.ofNat 2048 (pack uw out), a.tag⟩
        (fun j => (seqFrom (j * ew / uw) ((ew + uw - 1) / uw)).all (active m)) s }

/-! ### Meanings -/

def execQldm (e : Option Nat) (q va : Nat) (s : State) : Out := issueOne (.qldm e q va) (opQldm e q va) s
def execQldk (e : Option Nat) (q va : Nat) (s : State) : Out := issueOne (.qldk e q va) (opQldk e q va) s
def execQadd (e : Option Nat) (vd va vb mk q : Nat) (s : State) : Out :=
  issueOne (.qadd e vd va vb mk q) (opQadd e vd va vb mk q) s
def execQsub (e : Option Nat) (vd va vb mk q : Nat) (s : State) : Out :=
  issueOne (.qsub e vd va vb mk q) (opQsub e vd va vb mk q) s
def execQmul (e : Option Nat) (vd va vb mk q : Nat) (s : State) : Out :=
  issueOne (.qmul e vd va vb mk q) (opQmul e vd va vb mk q) s
def execQmac (e : Option Nat) (vd va vb mk q : Nat) (s : State) : Out :=
  issueOne (.qmac e vd va vb mk q) (opQmac e vd va vb mk q) s
def execQred (e : Option Nat) (vd va mk q : Nat) (s : State) : Out := issueOne (.qred e vd va mk q) (opQred e vd va mk q) s
def execQbfly (e : Option Nat) (vx vy vw mk q : Nat) (s : State) : Out :=
  issueOne (.qbfly e vx vy vw mk q) (opQbfly e vx vy vw mk q) s
def execQibfly (e : Option Nat) (vx vy vw mk q : Nat) (s : State) : Out :=
  issueOne (.qibfly e vx vy vw mk q) (opQibfly e vx vy vw mk q) s
def execQcvtQ64I64 (e : Option Nat) (vd va mk q : Nat) (s : State) : Out :=
  issueOne (.qcvtQ64I64 e vd va mk q) (opQcvtQ64I64 e vd va mk q) s
def execQcvtI64Q64 (e : Option Nat) (vd va mk q : Nat) (s : State) : Out :=
  issueOne (.qcvtI64Q64 e vd va mk q) (opQcvtI64Q64 e vd va mk q) s
def execBperm (e : Option Nat) (vd va mk stg : Nat) (w : Bool) (s : State) : Out :=
  issueOne (.bperm e vd va mk stg w) (opBperm e vd va mk stg w) s
def execBpermi (e : Option Nat) (vd va stg : Nat) (w : Bool) (s : State) : Out :=
  issueOne (.bpermi e vd va stg w) (opBpermi e vd va stg w) s
def execVxperm (e : Option Nat) (vd va vi mk : Nat) (w : Bool) (s : State) : Out :=
  issueOne (.vxperm e vd va vi mk w) (opVxperm e vd va vi mk w) s

end Sys2Proof.Machine
end

