-- ==== Sys2Proof/Machine/Slots.lean ====
section
/-!
DEFINITION. What each syllable instruction is inside a bundle; bundle forms and events are no syllables (R108).
-/

namespace Sys2Proof.Machine

open Sys2Proof

/-- The meaning of a slot syllable within its bundle. -/
def opOf : Instr → Option Op
  | .nop => some opNop
  | .br off => some (opBr off)
  | .brp p pn off => some (opBrp p pn off)
  | .brr a => some (opBrr a)
  | .call link off => some (opCall link off)
  | .ret a => some (opRet a)
  | .loop lvl lcn pin off => some (opLoop lvl lcn pin off)
  | .loopEnd lvl => some (opLoopEnd lvl)
  | .endk => some opEndk
  | .bwait e bar gn => some (opBwait e bar gn)
  | .barv e bar gn scope tset => some (opBarv e bar gn scope tset)
  | .binit e bar gn => some (opBinit e bar gn)
  | .monwait e mon gn => some (opMonwait e mon gn)
  | .gear gr => some (opGear gr)
  | .gearReg gn => some (opGearReg gn)
  | .trap code => some (opTrap code)
  | .brk code => some (opBrk code)
  | .dlchk pd gn t => some (opDlchk pd gn t)
  | .launch a pri => some (opLaunch a pri)
  | .lqstat d pri => some (opLqstat d pri)
  | .eret => some opEret
  | .srdp d sr idx => some (opSrdp d sr idx)
  | .swrp a sr idx => some (opSwrp a sr idx)
  | .tlbinvPage a c => some (opTlbinvPage a c)
  | .tlbinvAll c => some (opTlbinvAll c)
  | .tlbinvWb a c => some (opTlbinvWb a c)
  | .ctxsvCtx t a c => some (opCtxsvCtx t a c)
  | .ctxsvCore t a c => some (opCtxsvCore t a c)
  | .ctxldCtx t a c => some (opCtxldCtx t a c)
  | .ctxldCore t a c => some (opCtxldCore t a c)
  | .trcctlOff => some opTrcctlOff
  | .trcctlRec a => some (opTrcctlRec a)
  | .trcctlBind a => some (opTrcctlBind a)
  | .idle => some opIdle
  | .add e d a b p pn => some (opAdd e d a b p pn)
  | .sub e d a b p pn => some (opSub e d a b p pn)
  | .mul e d a b p pn => some (opMul e d a b p pn)
  | .and e d a b p pn => some (opAnd e d a b p pn)
  | .or e d a b p pn => some (opOr e d a b p pn)
  | .xor e d a b p pn => some (opXor e d a b p pn)
  | .andn e d a b p pn => some (opAndn e d a b p pn)
  | .shl e d a b p pn => some (opShl e d a b p pn)
  | .shr e d a b p pn => some (opShr e d a b p pn)
  | .sra e d a b p pn => some (opSra e d a b p pn)
  | .rot e d a b p pn => some (opRot e d a b p pn)
  | .mulh e d a b p pn u => some (opMulh e d a b p pn u)
  | .div e d a b p pn u => some (opDiv e d a b p pn u)
  | .rem e d a b p pn u => some (opRem e d a b p pn u)
  | .min e d a b p pn u => some (opMin e d a b p pn u)
  | .max e d a b p pn u => some (opMax e d a b p pn u)
  | .clz d a p pn => some (opClz d a p pn)
  | .popc d a p pn => some (opPopc d a p pn)
  | .cmp e pd cond a b p pn u => some (opCmp e pd cond a b p pn u)
  | .sel e d a b ps pn => some (opSel e d a b ps pn)
  | .ldi d imm => some (opLdi d imm)
  | .ldiExt e d => some (opLdiExt e d)
  | .ldiHi e d => some (opLdiHi e d)
  | .pand pd pa pb na nb => some (opPand pd pa pb na nb)
  | .por pd pa pb na nb => some (opPor pd pa pb na nb)
  | .pxor pd pa pb na nb => some (opPxor pd pa pb na nb)
  | .pnot pd pa na => some (opPnot pd pa na)
  | .srd d sr idx p pn => some (opSrd d sr idx p pn)
  | .swr a sr idx p pn => some (opSwr a sr idx p pn)
  | .amov ad as str => some (opAmov ad as str)
  | .aadd e ad as gn => some (opAadd e ad as gn)
  | .aldi e ad gn imm => some (opAldi e ad gn imm)
  | .astr e ad lvl gn => some (opAstr e ad lvl gn)
  | .aget d as ss lvl => some (opAget d as ss lvl)
  | .aclr mask adr => some (opAclr mask adr)
  | .ld e d an sz sx off => some (opLd e d an sz sx off)
  | .st e gs an sz off => some (opSt e gs an sz off)
  | .vld e vd an tag off => some (opVld e vd an tag off)
  | .vst e vs an tag mk off => some (opVst e vs an tag mk off)
  | .vldw e pr an tag blk off => some (opVldw e pr an tag blk off)
  | .vstw e pr an tag blk off => some (opVstw e pr an tag blk off)
  | .vgth e vd vi an mk tag => some (opVgth e vd vi an mk tag)
  | .vsct e vs vi an mk tag => some (opVsct e vs vi an mk tag)
  | .vjoin => some opVjoin
  | .pld e md an off => some (opPld e md an off)
  | .pst e ms an off => some (opPst e ms an off)
  | .vadd e vd va vb mk ft u => some (opVadd e vd va vb mk ft u)
  | .vsub e vd va vb mk ft u => some (opVsub e vd va vb mk ft u)
  | .vmul e vd va vb mk ft u => some (opVmul e vd va vb mk ft u)
  | .vmulh e vd va vb mk ft u => some (opVmulh e vd va vb mk ft u)
  | .vsadd e vd va vb mk ft u => some (opVsadd e vd va vb mk ft u)
  | .vssub e vd va vb mk ft u => some (opVssub e vd va vb mk ft u)
  | .vmin e vd va vb mk ft u => some (opVmin e vd va vb mk ft u)
  | .vmax e vd va vb mk ft u => some (opVmax e vd va vb mk ft u)
  | .vabs e vd va mk ft u => some (opVabs e vd va mk ft u)
  | .vneg e vd va mk ft u => some (opVneg e vd va mk ft u)
  | .vand e vd va vb mk ft u => some (opVand e vd va vb mk ft u)
  | .vor e vd va vb mk ft u => some (opVor e vd va vb mk ft u)
  | .vxor e vd va vb mk ft u => some (opVxor e vd va vb mk ft u)
  | .vandn e vd va vb mk ft u => some (opVandn e vd va vb mk ft u)
  | .vshl e vd va vb mk ft u => some (opVshl e vd va vb mk ft u)
  | .vshr e vd va vb mk ft u => some (opVshr e vd va vb mk ft u)
  | .vsra e vd va vb mk ft u => some (opVsra e vd va vb mk ft u)
  | .vclz e vd va mk ft u => some (opVclz e vd va mk ft u)
  | .vpopc e vd va mk ft u => some (opVpopc e vd va mk ft u)
  | .vcmp e md va vb cond ft u => some (opVcmp e md va vb cond ft u)
  | .vfadd e vd va vb mk ft => some (opVfadd e vd va vb mk ft)
  | .vfsub e vd va vb mk ft => some (opVfsub e vd va vb mk ft)
  | .vfmul e vd va vb mk ft => some (opVfmul e vd va vb mk ft)
  | .vfma e vd va vb mk ft => some (opVfma e vd va vb mk ft)
  | .vfms e vd va vb mk ft => some (opVfms e vd va vb mk ft)
  | .vfnma e vd va vb mk ft => some (opVfnma e vd va vb mk ft)
  | .vfmin e vd va vb mk ft => some (opVfmin e vd va vb mk ft)
  | .vfmax e vd va vb mk ft => some (opVfmax e vd va vb mk ft)
  | .vfabs e vd va mk ft => some (opVfabs e vd va mk ft)
  | .vfneg e vd va mk ft => some (opVfneg e vd va mk ft)
  | .vfcmp e md va vb cond ft => some (opVfcmp e md va vb cond ft)
  | .vfcls e md va cls ft => some (opVfcls e md va cls ft)
  | .vfexp e vd va mk ft => some (opVfexp e vd va mk ft)
  | .vfscl e vd va vb mk ft => some (opVfscl e vd va vb mk ft)
  | .vcvt e vd va tt ft part su du => some (opVcvt e vd va tt ft part su du)
  | .vcvts e vd va vr tt ft => some (opVcvts e vd va vr tt ft)
  | .vquant e vd va ct part ft => some (opVquant e vd va ct part ft)
  | .vquantBlk e vd va md ft => some (opVquantBlk e vd va md ft)
  | .vdeq e vd va tt ct part => some (opVdeq e vd va tt ct part)
  | .vdeqBlk e vd va tt part => some (opVdeqBlk e vd va tt part)
  | .vsel e vd va vb mk ft u => some (opVsel e vd va vb mk ft u)
  | .vmov e vd va mk ft u => some (opVmov e vd va mk ft u)
  | .vbcast vd gn mk ft u => some (opVbcast vd gn mk ft u)
  | .vbcastRow e vd va idx ft => some (opVbcastRow e vd va idx ft)
  | .vbcastCol e vd va idx ft => some (opVbcastCol e vd va idx ft)
  | .vins vd gn idx ft u => some (opVins vd gn idx ft u)
  | .vext e d va idx ft u => some (opVext e d va idx ft u)
  | .vshape rc => some (opVshape rc)
  | .vtag e vd va tt => some (opVtag e vd va tt)
  | .vrsum e vd va mk ft u dir => some (opVrsum e vd va mk ft u dir)
  | .vrmax e vd va mk ft u dir => some (opVrmax e vd va mk ft u dir)
  | .vrmin e vd va mk ft u dir => some (opVrmin e vd va mk ft u dir)
  | .vxrd e vd va vi mk md u => some (opVxrd e vd va vi mk md u)
  | .vrot e vd va k ft u => some (opVrot e vd va k ft u)
  | .vspush e sq va mk => some (opVspush e sq va mk)
  | .vspop sq vd md => some (opVspop sq vd md)
  | .vspopEnd sq vd md => some (opVspopEnd sq vd md)
  | .vsbal sqa sqb => some (opVsbal sqa sqb)
  | .mand md ma mb => some (opMand md ma mb)
  | .mor md ma mb => some (opMor md ma mb)
  | .mxor md ma mb => some (opMxor md ma mb)
  | .mnot md ma => some (opMnot md ma)
  | .mpopc d ma => some (opMpopc d ma)
  | .mfirst d ma => some (opMfirst d ma)
  | .mset md cnt => some (opMset md cnt)
  | .msetReg md gn => some (opMsetReg md gn)
  | .fexp2 e vd va mk => some (opFexp2 e vd va mk)
  | .flog2 e vd va mk => some (opFlog2 e vd va mk)
  | .frcp e vd va mk => some (opFrcp e vd va mk)
  | .frsq e vd va mk => some (opFrsq e vd va mk)
  | .mclaim kind first cnt => some (opMclaim kind first cnt)
  | .mrel kind first cnt => some (opMrel kind first cnt)
  | .mfill e os grp an off => some (opMfill e os grp an off)
  | .mlatch lt os blk => some (opMlatch lt os blk)
  | .mpush e lt row va part blk => some (opMpush e lt row va part blk)
  | .mshift e os row va part blk => some (opMshift e os row va part blk)
  | .macc e acc row os lt za => some (opMacc e acc row os lt za)
  | .mdrain acc row vd tt part clr => some (opMdrain acc row vd tt part clr)
  | .mzero acc => some (opMzero acc)
  | .mfmt fa fb ca cb ct ua ub => some (opMfmt fa fb ca cb ct ua ub)
  | .qldm e q va => some (opQldm e q va)
  | .qldk e q va => some (opQldk e q va)
  | .qadd e vd va vb mk q => some (opQadd e vd va vb mk q)
  | .qsub e vd va vb mk q => some (opQsub e vd va vb mk q)
  | .qmul e vd va vb mk q => some (opQmul e vd va vb mk q)
  | .qmac e vd va vb mk q => some (opQmac e vd va vb mk q)
  | .qred e vd va mk q => some (opQred e vd va mk q)
  | .qbfly e vx vy vw mk q => some (opQbfly e vx vy vw mk q)
  | .qibfly e vx vy vw mk q => some (opQibfly e vx vy vw mk q)
  | .qcvtQ64I64 e vd va mk q => some (opQcvtQ64I64 e vd va mk q)
  | .qcvtI64Q64 e vd va mk q => some (opQcvtI64Q64 e vd va mk q)
  | .bperm e vd va mk stg w => some (opBperm e vd va mk stg w)
  | .bpermi e vd va stg w => some (opBpermi e vd va stg w)
  | .vxperm e vd va vi mk w => some (opVxperm e vd va vi mk w)
  | .seqlv e lvl fld gn => some (opSeqlv e lvl fld gn)
  | .seqgo d gs c => some (opSeqgo d gs c)
  | .tmov d gs c sz => some (opTmov d gs c sz)
  | .mcast e d gs c sz => some (opMcast e d gs c sz)
  | .send ch vs nb => some (opSend ch vs nb)
  | .sendMem ch a nb => some (opSendMem ch a nb)
  | .recv e ch vd nb tag gn => some (opRecv e ch vd nb tag gn)
  | .recvMem e ch a nb gn => some (opRecvMem e ch a nb gn)
  | .nmcmd a c => some (opNmcmd a c)
  | .nmfence => some opNmfence
  | .fence scope => some (opFence scope)
  | .atom op w a b rt => some (opAtom op w a b rt)
  | .atomr op w a b rt => some (opAtomr op w a b rt)
  | .shalloc gs rt mir => some (opShalloc gs rt mir)
  | .shfree a rt => some (opShfree a rt)
  | .stamp e scope a gv => some (opStamp e scope a gv)
  | .monarm mon a => some (opMonarm mon a)
  | .bndset bd lo hi mode fk => some (opBndset bd lo hi mode fk)
  | .ctset ct a => some (opCtset ct a)
  | .coll a c => some (opColl a c)
  | .pref a sz => some (opPref a sz)
  | .bundleIssue .. | .dictionaryReference .. | .idleBundle .. | .contextReady .. | .heldRecordPost .. |
    .deferredCauseTaken .. | .transferDataArrival .. | .barrierArrival .. | .stampWrite .. | .monarmReadReturn .. |
    .postedStorePerform .. | .beatArrival .. | .beatReoffer .. | .creditReturn .. | .nmcmdAccept .. |
    .nmcmdComplete .. | .nmfenceAnswer .. | .copyComplete .. | .mcastDelivery .. | .slowPathHandoff .. |
    .pageRequestReply .. | .atomicPerform .. | .shallocReply .. | .shfreeReply .. | .shelfSwitchFailure .. |
    .collRegistration .. | .chunkAcknowledged .. | .switchResult .. | .fallback .. | .intakeStep .. | .partStart .. |
    .taskComplete .. | .endedCauseRecord .. | .resume .. | .step .. | .suspend .. | .abort .. | .saveComplete .. |
    .saveAbandon .. | .loadComplete .. | .idleWake .. | .tqctlWrite .. | .tqconsWrite .. | .energywWrite .. |
    .gearwWrite .. | .fmtctlWrite .. | .registerWrite .. | .tableWalk .. | .counterAdd .. | .tlbinvComplete .. |
    .slotGrant .. | .slotTableSwitch .. | .partitionCreate .. | .fabricReceive .. | .peerAck .. | .linkUp .. |
    .flitReplay .. | .linkFailure .. | .linkRetrain .. | .destinationUnreachable .. | .reachableMark .. |
    .poisonConsumption .. | .patrolScrub .. | .gearChange .. | .gearChangeDone .. | .capControllerStep |
    .thermalHold .. | .thermalRelease .. | .emergencySave | .powerRemoval | .droopTrip .. | .droopRecovery .. |
    .hbmFrequencyChange .. | .retrainingPauseEnd .. | .ballastEstimate .. | .staticTick .. | .wearSwing .. |
    .wearFlashWrite | .orderlyShutdown | .restartRestore | .powerOn | .bootStageComplete .. | .fdoorSubmit .. |
    .capsetWrite .. | .checkpointStart | .checkpointPeriod .. | .periodicCheckpoint | .checkpointComplete |
    .attestationRequest .. | .attestationReportReady | .klotyQueueRecord .. | .hostWindowAccess .. |
    .expanderReturn .. | .hbm4Refresh .. | .chainPartialArrival .. | .partitionChange .. => none

end Sys2Proof.Machine
end

