-- ==== Sys2Proof/Machine/Bundle.lean ====
section
/-!
DEFINITION. Whole bundles (R106 to R112): explicit bundles with their sticky re-issues, references to the dictionary, idle bundles.
-/

namespace Sys2Proof.Machine

open Sys2Proof

/-- A syllable word in its slot: its meaning, or none where the word is no instruction there (R118). -/
def sylOf (t : Nat × Nat × Option Nat) (k : Nat) (dict : Option Nat) (off : Nat) (own : Bool) : Syl :=
  { slot := t.1, k := k, word := t.2.1, ext := t.2.2, dict := dict, off := off, own := own,
    op := match decodeSyl t.1 t.2.1 t.2.2 with
      | .ok i => opOf i
      | .error _ => none }
/-- The sticky re-issue of a slot, with its step count raised (R112). -/
def stickyOf (r : Regs) (slot : Nat) : Option Syl :=
  (r.sticky.find slot).map fun y => sylOf (slot, y.word, y.ext) ((y.k + 1) % 2 ^ 32) y.dict y.off false
/-- The syllables a bundle issues, in header order: its own, and with STK those of the recorded slots it leaves free. -/
def sylsOf (r : Regs) (stk : Bool) (own : List (Nat × Nat × Option Nat)) (dict : Option Nat) : List Syl :=
  (List.range 11).filterMap fun slot =>
    match own.find? fun t => t.1 == slot with
    | some t => some (sylOf t 0 dict r.pc true)
    | none => if stk then stickyOf r slot else none
/-- Bound registers that a bundle's own `BNDSET` sets (R191). -/
def bndsOf (r : Regs) (own : List (Nat × Nat × Option Nat)) : List (Nat × Bound) :=
  own.filterMap fun t =>
    match decodeSyl t.1 t.2.1 t.2.2 with
    | .ok (.bndset bd lo hi mode fk) => if boundBad (r.rg lo) (r.rg hi) fk then none else some (bd, ⟨r.rg lo, r.rg hi, fk, mode⟩)
    | _ => none
/-- A bundle of these syllables by the core whose turn it is. -/
def issueBundle (s : State) (x : Nat) (h : Head) (own : List (Nat × Nat × Option Nat)) : State :=
  let r := (s.ctx s.cur x).regs
  issue s s.cur x h (sylsOf r h.stk own h.dict) (bndsOf r own)

/-- BUNDLE_ISSUE. -/
def execBundleIssue (rep : Nat) (seg rdv stk : Bool) (syls : List (Nat × Nat × Option Nat)) (s : State) : Out :=
  match issuer s s.cur with
  | none => .next s
  | some x =>
    let h : Head := ⟨bundleLen (.bundleIssue rep seg rdv stk syls), rep, seg, rdv, stk, none⟩
    .next (issueBundle s x h syls)
/-- The fetch of `n` bytes of a page counts once where the page is of mode 3 (R285), and goes to a peer in requests of its largest
payload (R311, R315; DESIGN CHOICE, log entry 34). -/
def countPage (s : State) (c x va n : Nat) : State :=
  match xlate s c (s.ctx c x).level .fetch (va % 2 ^ 57) with
  | .ok t => (countVa s (s.partOf c) c (va % 2 ^ 57) t).exchangeBytes t.ga n
  | .error _ => s
/-- The fetch of `n` bytes, in each page that it touches. -/
def countFetch (s : State) (c x va n : Nat) : State :=
  let first := Nat.min n (2 ^ 16 - va % 2 ^ 16)
  let s := countPage s c x va first
  if first < n then countPage s c x (va + first) (n - first) else s
/-- The loop buffer serves a bundle: its loop is active, and its body holds the offset (R121).  The entry that a bundle at `off` names is
held under `off + 1`. -/
def pinLoop (s : State) (c x off : Nat) : Option (Nat × Nat × List Nat) :=
  (s.core c).pin.filter fun p => decide (p.1 ≤ off ∧ off < p.2.1) && (s.core c).last == x && [0, 1, 2, 3].any fun l =>
    let v := (s.ctx c x).regs.loop l
    v.act && v.start == p.1 && v.exit == p.2.1
/-- What is issued from the buffer is not fetched again (R121). -/
def pinned (s : State) (c x off : Nat) : Bool := (pinLoop s c x off).any fun p => p.2.2.contains off
/-- A bundle of a pinned body, once fetched, stays in the buffer (R121). -/
def keepPinned (s : State) (c x off : Nat) : State :=
  (pinLoop s c x off).elim s fun p => s.modCore c fun k => { k with pin := some (p.1, p.2.1, off :: p.2.2) }
/-- A fetch of `n` bytes waits for a stack that retrains or a port to a peer (R313, R334). -/
def fetchPaused (s : State) (c va n : Nat) : Bool := waitsIn s (s.partOf c) c (va % 2 ^ 57) n
/-- DICTIONARY_REFERENCE (R110): the entry's syllables with the reference's own fields; a breakpoint comes before the illegal bundle
of an entry that is none (R118). -/
def execDictionaryReference (rep : Nat) (seg rdv stk : Bool) (idx : Nat) (s : State) : Out :=
  match issuer s s.cur with
  | none => .next s
  | some x =>
    let base := (s.ctx s.cur x).info.dictVa + 96 * idx
    let at_ := (s.ctx s.cur x).regs.pc + 1
    let held := pinned s s.cur x at_
    if !held && fetchPaused s s.cur base 96 then .next s
    else match fetchEntry s s.cur x idx with
      | .error e => .next (fetchStop s s.cur x [] e)
      | .ok syls =>
        let t := if held then s else keepPinned (countFetch s s.cur x base 96) s.cur x at_
        .next (issueBundle t x ⟨4, rep, seg, rdv, stk, some idx⟩ syls)

/-- One cycle of an idle bundle; `left` cycles are still to come, this one included (R109, R340). -/
def idleCycle (s : State) (c x : Nat) (h : Head) (left : Nat) : State :=
  let k := s.ctx c x
  let s := if h.seg && k.regs.idleLeft == 0 && k.seg.isNone then openSegment s c x else s
  let s := s.charge c x (weight ((s.core c).curOf x) 12)
  let s := s.modCtx c x fun q => { q with
    stepPending := q.stepPending && !q.stepping
    seg := q.reissued }
  let s := settle s c x
  if left > 1 then s.modRegs c x fun r => { r with idleLeft := left - 1 }
  else endIfDue (complete (if h.rdv then commitSegment s c x else s) c x h.len) c x
/-- IDLE_BUNDLE: a step is one of its cycles; breakpoints and the header's rules are judged at the first. -/
def execIdleBundle (seg rdv : Bool) (count : Nat) (s : State) : Out :=
  match issuer s s.cur with
  | none => .next s
  | some x =>
    let k := s.ctx s.cur x
    let h : Head := ⟨4, 0, seg, rdv, false, none⟩
    if k.regs.idleLeft ≠ 0 then .next (idleCycle s s.cur x h k.regs.idleLeft)
    else match breakCause k [] with
      | some q => .next (takeCause s s.cur x 0 q ⟨k.regs.ltime, k.regs.pc, q.slot, 0⟩)
      | none =>
        if illegalBundle s s.cur x h [] then .next (stopBundle s s.cur x 15 (.trap { code := 0x02 }))
        else .next (idleCycle s s.cur x h count)

end Sys2Proof.Machine
end

