-- ==== Sys2Proof/Machine/Dispatch.lean ====
section
/-!
DEFINITION. One arm per constructor of `Instr`, each one direct call of its meaning.
-/

namespace Sys2Proof.Machine

open Sys2Proof

def exec (i : Instr) (s : State) : Host.Outcome State Fault Refusal :=
  match i with
  | .bundleIssue rep seg rdv stk syls => Sys2Proof.Machine.execBundleIssue rep seg rdv stk syls s
  | .dictionaryReference rep seg rdv stk idx => Sys2Proof.Machine.execDictionaryReference rep seg rdv stk idx s
  | .idleBundle seg rdv count => Sys2Proof.Machine.execIdleBundle seg rdv count s
  | .nop => Sys2Proof.Machine.execNop s
  | .br off => Sys2Proof.Machine.execBr off s
  | .brp p pn off => Sys2Proof.Machine.execBrp p pn off s
  | .brr a => Sys2Proof.Machine.execBrr a s
  | .call link off => Sys2Proof.Machine.execCall link off s
  | .ret a => Sys2Proof.Machine.execRet a s
  | .loop lvl lcn pin off => Sys2Proof.Machine.execLoop lvl lcn pin off s
  | .loopEnd lvl => Sys2Proof.Machine.execLoopEnd lvl s
  | .endk => Sys2Proof.Machine.execEndk s
  | .bwait e bar gn => Sys2Proof.Machine.execBwait e bar gn s
  | .barv e bar gn scope tset => Sys2Proof.Machine.execBarv e bar gn scope tset s
  | .binit e bar gn => Sys2Proof.Machine.execBinit e bar gn s
  | .monwait e mon gn => Sys2Proof.Machine.execMonwait e mon gn s
  | .gear gr => Sys2Proof.Machine.execGear gr s
  | .gearReg gn => Sys2Proof.Machine.execGearReg gn s
  | .trap code => Sys2Proof.Machine.execTrap code s
  | .brk code => Sys2Proof.Machine.execBrk code s
  | .dlchk pd gn t => Sys2Proof.Machine.execDlchk pd gn t s
  | .launch a pri => Sys2Proof.Machine.execLaunch a pri s
  | .lqstat d pri => Sys2Proof.Machine.execLqstat d pri s
  | .eret => Sys2Proof.Machine.execEret s
  | .srdp d sr idx => Sys2Proof.Machine.execSrdp d sr idx s
  | .swrp a sr idx => Sys2Proof.Machine.execSwrp a sr idx s
  | .tlbinvPage a c => Sys2Proof.Machine.execTlbinvPage a c s
  | .tlbinvAll c => Sys2Proof.Machine.execTlbinvAll c s
  | .tlbinvWb a c => Sys2Proof.Machine.execTlbinvWb a c s
  | .ctxsvCtx t a c => Sys2Proof.Machine.execCtxsvCtx t a c s
  | .ctxsvCore t a c => Sys2Proof.Machine.execCtxsvCore t a c s
  | .ctxldCtx t a c => Sys2Proof.Machine.execCtxldCtx t a c s
  | .ctxldCore t a c => Sys2Proof.Machine.execCtxldCore t a c s
  | .trcctlOff => Sys2Proof.Machine.execTrcctlOff s
  | .trcctlRec a => Sys2Proof.Machine.execTrcctlRec a s
  | .trcctlBind a => Sys2Proof.Machine.execTrcctlBind a s
  | .idle => Sys2Proof.Machine.execIdle s
  | .add e d a b p pn => Sys2Proof.Machine.execAdd e d a b p pn s
  | .sub e d a b p pn => Sys2Proof.Machine.execSub e d a b p pn s
  | .mul e d a b p pn => Sys2Proof.Machine.execMul e d a b p pn s
  | .and e d a b p pn => Sys2Proof.Machine.execAnd e d a b p pn s
  | .or e d a b p pn => Sys2Proof.Machine.execOr e d a b p pn s
  | .xor e d a b p pn => Sys2Proof.Machine.execXor e d a b p pn s
  | .andn e d a b p pn => Sys2Proof.Machine.execAndn e d a b p pn s
  | .shl e d a b p pn => Sys2Proof.Machine.execShl e d a b p pn s
  | .shr e d a b p pn => Sys2Proof.Machine.execShr e d a b p pn s
  | .sra e d a b p pn => Sys2Proof.Machine.execSra e d a b p pn s
  | .rot e d a b p pn => Sys2Proof.Machine.execRot e d a b p pn s
  | .mulh e d a b p pn u => Sys2Proof.Machine.execMulh e d a b p pn u s
  | .div e d a b p pn u => Sys2Proof.Machine.execDiv e d a b p pn u s
  | .rem e d a b p pn u => Sys2Proof.Machine.execRem e d a b p pn u s
  | .min e d a b p pn u => Sys2Proof.Machine.execMin e d a b p pn u s
  | .max e d a b p pn u => Sys2Proof.Machine.execMax e d a b p pn u s
  | .clz d a p pn => Sys2Proof.Machine.execClz d a p pn s
  | .popc d a p pn => Sys2Proof.Machine.execPopc d a p pn s
  | .cmp e pd cond a b p pn u => Sys2Proof.Machine.execCmp e pd cond a b p pn u s
  | .sel e d a b ps pn => Sys2Proof.Machine.execSel e d a b ps pn s
  | .ldi d imm => Sys2Proof.Machine.execLdi d imm s
  | .ldiExt e d => Sys2Proof.Machine.execLdiExt e d s
  | .ldiHi e d => Sys2Proof.Machine.execLdiHi e d s
  | .pand pd pa pb na nb => Sys2Proof.Machine.execPand pd pa pb na nb s
  | .por pd pa pb na nb => Sys2Proof.Machine.execPor pd pa pb na nb s
  | .pxor pd pa pb na nb => Sys2Proof.Machine.execPxor pd pa pb na nb s
  | .pnot pd pa na => Sys2Proof.Machine.execPnot pd pa na s
  | .srd d sr idx p pn => Sys2Proof.Machine.execSrd d sr idx p pn s
  | .swr a sr idx p pn => Sys2Proof.Machine.execSwr a sr idx p pn s
  | .amov ad as str => Sys2Proof.Machine.execAmov ad as str s
  | .aadd e ad as gn => Sys2Proof.Machine.execAadd e ad as gn s
  | .aldi e ad gn imm => Sys2Proof.Machine.execAldi e ad gn imm s
  | .astr e ad lvl gn => Sys2Proof.Machine.execAstr e ad lvl gn s
  | .aget d as ss lvl => Sys2Proof.Machine.execAget d as ss lvl s
  | .aclr mask adr => Sys2Proof.Machine.execAclr mask adr s
  | .ld e d an sz sx off => Sys2Proof.Machine.execLd e d an sz sx off s
  | .st e gs an sz off => Sys2Proof.Machine.execSt e gs an sz off s
  | .vld e vd an tag off => Sys2Proof.Machine.execVld e vd an tag off s
  | .vst e vs an tag mk off => Sys2Proof.Machine.execVst e vs an tag mk off s
  | .vldw e pr an tag blk off => Sys2Proof.Machine.execVldw e pr an tag blk off s
  | .vstw e pr an tag blk off => Sys2Proof.Machine.execVstw e pr an tag blk off s
  | .vgth e vd vi an mk tag => Sys2Proof.Machine.execVgth e vd vi an mk tag s
  | .vsct e vs vi an mk tag => Sys2Proof.Machine.execVsct e vs vi an mk tag s
  | .vjoin => Sys2Proof.Machine.execVjoin s
  | .pld e md an off => Sys2Proof.Machine.execPld e md an off s
  | .pst e ms an off => Sys2Proof.Machine.execPst e ms an off s
  | .vadd e vd va vb mk ft u => Sys2Proof.Machine.execVadd e vd va vb mk ft u s
  | .vsub e vd va vb mk ft u => Sys2Proof.Machine.execVsub e vd va vb mk ft u s
  | .vmul e vd va vb mk ft u => Sys2Proof.Machine.execVmul e vd va vb mk ft u s
  | .vmulh e vd va vb mk ft u => Sys2Proof.Machine.execVmulh e vd va vb mk ft u s
  | .vsadd e vd va vb mk ft u => Sys2Proof.Machine.execVsadd e vd va vb mk ft u s
  | .vssub e vd va vb mk ft u => Sys2Proof.Machine.execVssub e vd va vb mk ft u s
  | .vmin e vd va vb mk ft u => Sys2Proof.Machine.execVmin e vd va vb mk ft u s
  | .vmax e vd va vb mk ft u => Sys2Proof.Machine.execVmax e vd va vb mk ft u s
  | .vabs e vd va mk ft u => Sys2Proof.Machine.execVabs e vd va mk ft u s
  | .vneg e vd va mk ft u => Sys2Proof.Machine.execVneg e vd va mk ft u s
  | .vand e vd va vb mk ft u => Sys2Proof.Machine.execVand e vd va vb mk ft u s
  | .vor e vd va vb mk ft u => Sys2Proof.Machine.execVor e vd va vb mk ft u s
  | .vxor e vd va vb mk ft u => Sys2Proof.Machine.execVxor e vd va vb mk ft u s
  | .vandn e vd va vb mk ft u => Sys2Proof.Machine.execVandn e vd va vb mk ft u s
  | .vshl e vd va vb mk ft u => Sys2Proof.Machine.execVshl e vd va vb mk ft u s
  | .vshr e vd va vb mk ft u => Sys2Proof.Machine.execVshr e vd va vb mk ft u s
  | .vsra e vd va vb mk ft u => Sys2Proof.Machine.execVsra e vd va vb mk ft u s
  | .vclz e vd va mk ft u => Sys2Proof.Machine.execVclz e vd va mk ft u s
  | .vpopc e vd va mk ft u => Sys2Proof.Machine.execVpopc e vd va mk ft u s
  | .vcmp e md va vb cond ft u => Sys2Proof.Machine.execVcmp e md va vb cond ft u s
  | .vfadd e vd va vb mk ft => Sys2Proof.Machine.execVfadd e vd va vb mk ft s
  | .vfsub e vd va vb mk ft => Sys2Proof.Machine.execVfsub e vd va vb mk ft s
  | .vfmul e vd va vb mk ft => Sys2Proof.Machine.execVfmul e vd va vb mk ft s
  | .vfma e vd va vb mk ft => Sys2Proof.Machine.execVfma e vd va vb mk ft s
  | .vfms e vd va vb mk ft => Sys2Proof.Machine.execVfms e vd va vb mk ft s
  | .vfnma e vd va vb mk ft => Sys2Proof.Machine.execVfnma e vd va vb mk ft s
  | .vfmin e vd va vb mk ft => Sys2Proof.Machine.execVfmin e vd va vb mk ft s
  | .vfmax e vd va vb mk ft => Sys2Proof.Machine.execVfmax e vd va vb mk ft s
  | .vfabs e vd va mk ft => Sys2Proof.Machine.execVfabs e vd va mk ft s
  | .vfneg e vd va mk ft => Sys2Proof.Machine.execVfneg e vd va mk ft s
  | .vfcmp e md va vb cond ft => Sys2Proof.Machine.execVfcmp e md va vb cond ft s
  | .vfcls e md va cls ft => Sys2Proof.Machine.execVfcls e md va cls ft s
  | .vfexp e vd va mk ft => Sys2Proof.Machine.execVfexp e vd va mk ft s
  | .vfscl e vd va vb mk ft => Sys2Proof.Machine.execVfscl e vd va vb mk ft s
  | .vcvt e vd va tt ft part su du => Sys2Proof.Machine.execVcvt e vd va tt ft part su du s
  | .vcvts e vd va vr tt ft => Sys2Proof.Machine.execVcvts e vd va vr tt ft s
  | .vquant e vd va ct part ft => Sys2Proof.Machine.execVquant e vd va ct part ft s
  | .vquantBlk e vd va md ft => Sys2Proof.Machine.execVquantBlk e vd va md ft s
  | .vdeq e vd va tt ct part => Sys2Proof.Machine.execVdeq e vd va tt ct part s
  | .vdeqBlk e vd va tt part => Sys2Proof.Machine.execVdeqBlk e vd va tt part s
  | .vsel e vd va vb mk ft u => Sys2Proof.Machine.execVsel e vd va vb mk ft u s
  | .vmov e vd va mk ft u => Sys2Proof.Machine.execVmov e vd va mk ft u s
  | .vbcast vd gn mk ft u => Sys2Proof.Machine.execVbcast vd gn mk ft u s
  | .vbcastRow e vd va idx ft => Sys2Proof.Machine.execVbcastRow e vd va idx ft s
  | .vbcastCol e vd va idx ft => Sys2Proof.Machine.execVbcastCol e vd va idx ft s
  | .vins vd gn idx ft u => Sys2Proof.Machine.execVins vd gn idx ft u s
  | .vext e d va idx ft u => Sys2Proof.Machine.execVext e d va idx ft u s
  | .vshape rc => Sys2Proof.Machine.execVshape rc s
  | .vtag e vd va tt => Sys2Proof.Machine.execVtag e vd va tt s
  | .vrsum e vd va mk ft u dir => Sys2Proof.Machine.execVrsum e vd va mk ft u dir s
  | .vrmax e vd va mk ft u dir => Sys2Proof.Machine.execVrmax e vd va mk ft u dir s
  | .vrmin e vd va mk ft u dir => Sys2Proof.Machine.execVrmin e vd va mk ft u dir s
  | .vxrd e vd va vi mk md u => Sys2Proof.Machine.execVxrd e vd va vi mk md u s
  | .vrot e vd va k ft u => Sys2Proof.Machine.execVrot e vd va k ft u s
  | .vspush e sq va mk => Sys2Proof.Machine.execVspush e sq va mk s
  | .vspop sq vd md => Sys2Proof.Machine.execVspop sq vd md s
  | .vspopEnd sq vd md => Sys2Proof.Machine.execVspopEnd sq vd md s
  | .vsbal sqa sqb => Sys2Proof.Machine.execVsbal sqa sqb s
  | .mand md ma mb => Sys2Proof.Machine.execMand md ma mb s
  | .mor md ma mb => Sys2Proof.Machine.execMor md ma mb s
  | .mxor md ma mb => Sys2Proof.Machine.execMxor md ma mb s
  | .mnot md ma => Sys2Proof.Machine.execMnot md ma s
  | .mpopc d ma => Sys2Proof.Machine.execMpopc d ma s
  | .mfirst d ma => Sys2Proof.Machine.execMfirst d ma s
  | .mset md cnt => Sys2Proof.Machine.execMset md cnt s
  | .msetReg md gn => Sys2Proof.Machine.execMsetReg md gn s
  | .fexp2 e vd va mk => Sys2Proof.Machine.execFexp2 e vd va mk s
  | .flog2 e vd va mk => Sys2Proof.Machine.execFlog2 e vd va mk s
  | .frcp e vd va mk => Sys2Proof.Machine.execFrcp e vd va mk s
  | .frsq e vd va mk => Sys2Proof.Machine.execFrsq e vd va mk s
  | .mclaim kind first cnt => Sys2Proof.Machine.execMclaim kind first cnt s
  | .mrel kind first cnt => Sys2Proof.Machine.execMrel kind first cnt s
  | .mfill e os grp an off => Sys2Proof.Machine.execMfill e os grp an off s
  | .mlatch lt os blk => Sys2Proof.Machine.execMlatch lt os blk s
  | .mpush e lt row va part blk => Sys2Proof.Machine.execMpush e lt row va part blk s
  | .mshift e os row va part blk => Sys2Proof.Machine.execMshift e os row va part blk s
  | .macc e acc row os lt za => Sys2Proof.Machine.execMacc e acc row os lt za s
  | .mdrain acc row vd tt part clr => Sys2Proof.Machine.execMdrain acc row vd tt part clr s
  | .mzero acc => Sys2Proof.Machine.execMzero acc s
  | .mfmt fa fb ca cb ct ua ub => Sys2Proof.Machine.execMfmt fa fb ca cb ct ua ub s
  | .qldm e q va => Sys2Proof.Machine.execQldm e q va s
  | .qldk e q va => Sys2Proof.Machine.execQldk e q va s
  | .qadd e vd va vb mk q => Sys2Proof.Machine.execQadd e vd va vb mk q s
  | .qsub e vd va vb mk q => Sys2Proof.Machine.execQsub e vd va vb mk q s
  | .qmul e vd va vb mk q => Sys2Proof.Machine.execQmul e vd va vb mk q s
  | .qmac e vd va vb mk q => Sys2Proof.Machine.execQmac e vd va vb mk q s
  | .qred e vd va mk q => Sys2Proof.Machine.execQred e vd va mk q s
  | .qbfly e vx vy vw mk q => Sys2Proof.Machine.execQbfly e vx vy vw mk q s
  | .qibfly e vx vy vw mk q => Sys2Proof.Machine.execQibfly e vx vy vw mk q s
  | .qcvtQ64I64 e vd va mk q => Sys2Proof.Machine.execQcvtQ64I64 e vd va mk q s
  | .qcvtI64Q64 e vd va mk q => Sys2Proof.Machine.execQcvtI64Q64 e vd va mk q s
  | .bperm e vd va mk stg w => Sys2Proof.Machine.execBperm e vd va mk stg w s
  | .bpermi e vd va stg w => Sys2Proof.Machine.execBpermi e vd va stg w s
  | .vxperm e vd va vi mk w => Sys2Proof.Machine.execVxperm e vd va vi mk w s
  | .seqlv e lvl fld gn => Sys2Proof.Machine.execSeqlv e lvl fld gn s
  | .seqgo d gs c => Sys2Proof.Machine.execSeqgo d gs c s
  | .tmov d gs c sz => Sys2Proof.Machine.execTmov d gs c sz s
  | .mcast e d gs c sz => Sys2Proof.Machine.execMcast e d gs c sz s
  | .send ch vs nb => Sys2Proof.Machine.execSend ch vs nb s
  | .sendMem ch a nb => Sys2Proof.Machine.execSendMem ch a nb s
  | .recv e ch vd nb tag gn => Sys2Proof.Machine.execRecv e ch vd nb tag gn s
  | .recvMem e ch a nb gn => Sys2Proof.Machine.execRecvMem e ch a nb gn s
  | .nmcmd a c => Sys2Proof.Machine.execNmcmd a c s
  | .nmfence => Sys2Proof.Machine.execNmfence s
  | .fence scope => Sys2Proof.Machine.execFence scope s
  | .atom op w a b rt => Sys2Proof.Machine.execAtom op w a b rt s
  | .atomr op w a b rt => Sys2Proof.Machine.execAtomr op w a b rt s
  | .shalloc gs rt mir => Sys2Proof.Machine.execShalloc gs rt mir s
  | .shfree a rt => Sys2Proof.Machine.execShfree a rt s
  | .stamp e scope a gv => Sys2Proof.Machine.execStamp e scope a gv s
  | .monarm mon a => Sys2Proof.Machine.execMonarm mon a s
  | .bndset bd lo hi mode fk => Sys2Proof.Machine.execBndset bd lo hi mode fk s
  | .ctset ct a => Sys2Proof.Machine.execCtset ct a s
  | .coll a c => Sys2Proof.Machine.execColl a c s
  | .pref a sz => Sys2Proof.Machine.execPref a sz s
  | .contextReady core ctx => Sys2Proof.Machine.execContextReady core ctx s
  | .heldRecordPost core ctx => Sys2Proof.Machine.execHeldRecordPost core ctx s
  | .deferredCauseTaken core ctx => Sys2Proof.Machine.execDeferredCauseTaken core ctx s
  | .transferDataArrival id => Sys2Proof.Machine.execTransferDataArrival id s
  | .barrierArrival id => Sys2Proof.Machine.execBarrierArrival id s
  | .stampWrite id => Sys2Proof.Machine.execStampWrite id s
  | .monarmReadReturn id => Sys2Proof.Machine.execMonarmReadReturn id s
  | .postedStorePerform id => Sys2Proof.Machine.execPostedStorePerform id s
  | .beatArrival id => Sys2Proof.Machine.execBeatArrival id s
  | .beatReoffer id => Sys2Proof.Machine.execBeatReoffer id s
  | .creditReturn id => Sys2Proof.Machine.execCreditReturn id s
  | .nmcmdAccept id => Sys2Proof.Machine.execNmcmdAccept id s
  | .nmcmdComplete id => Sys2Proof.Machine.execNmcmdComplete id s
  | .nmfenceAnswer id stack => Sys2Proof.Machine.execNmfenceAnswer id stack s
  | .copyComplete id => Sys2Proof.Machine.execCopyComplete id s
  | .mcastDelivery id core => Sys2Proof.Machine.execMcastDelivery id core s
  | .slowPathHandoff id => Sys2Proof.Machine.execSlowPathHandoff id s
  | .pageRequestReply id => Sys2Proof.Machine.execPageRequestReply id s
  | .atomicPerform id => Sys2Proof.Machine.execAtomicPerform id s
  | .shallocReply id => Sys2Proof.Machine.execShallocReply id s
  | .shfreeReply id => Sys2Proof.Machine.execShfreeReply id s
  | .shelfSwitchFailure dest => Sys2Proof.Machine.execShelfSwitchFailure dest s
  | .collRegistration id => Sys2Proof.Machine.execCollRegistration id s
  | .chunkAcknowledged id => Sys2Proof.Machine.execChunkAcknowledged id s
  | .switchResult id => Sys2Proof.Machine.execSwitchResult id s
  | .fallback id => Sys2Proof.Machine.execFallback id s
  | .intakeStep part => Sys2Proof.Machine.execIntakeStep part s
  | .partStart core => Sys2Proof.Machine.execPartStart core s
  | .taskComplete task => Sys2Proof.Machine.execTaskComplete task s
  | .endedCauseRecord task => Sys2Proof.Machine.execEndedCauseRecord task s
  | .resume core ctx => Sys2Proof.Machine.execResume core ctx s
  | .step core ctx => Sys2Proof.Machine.execStep core ctx s
  | .suspend core ctx => Sys2Proof.Machine.execSuspend core ctx s
  | .abort core ctx => Sys2Proof.Machine.execAbort core ctx s
  | .saveComplete id => Sys2Proof.Machine.execSaveComplete id s
  | .saveAbandon id => Sys2Proof.Machine.execSaveAbandon id s
  | .loadComplete id => Sys2Proof.Machine.execLoadComplete id s
  | .idleWake core ctx => Sys2Proof.Machine.execIdleWake core ctx s
  | .tqctlWrite part val => Sys2Proof.Machine.execTqctlWrite part val s
  | .tqconsWrite part val => Sys2Proof.Machine.execTqconsWrite part val s
  | .energywWrite core ctx val => Sys2Proof.Machine.execEnergywWrite core ctx val s
  | .gearwWrite core ctx val => Sys2Proof.Machine.execGearwWrite core ctx val s
  | .fmtctlWrite core ctx val => Sys2Proof.Machine.execFmtctlWrite core ctx val s
  | .registerWrite core ctx sel idx val => Sys2Proof.Machine.execRegisterWrite core ctx sel idx val s
  | .tableWalk core va => Sys2Proof.Machine.execTableWalk core va s
  | .counterAdd core va => Sys2Proof.Machine.execCounterAdd core va s
  | .tlbinvComplete id => Sys2Proof.Machine.execTlbinvComplete id s
  | .slotGrant port entry => Sys2Proof.Machine.execSlotGrant port entry s
  | .slotTableSwitch port => Sys2Proof.Machine.execSlotTableSwitch port s
  | .partitionCreate n => Sys2Proof.Machine.execPartitionCreate n s
  | .fabricReceive src tenant seq kind addr bytes => Sys2Proof.Machine.execFabricReceive src tenant seq kind addr bytes s
  | .peerAck id => Sys2Proof.Machine.execPeerAck id s
  | .linkUp port link far fw0 fw1 => Sys2Proof.Machine.execLinkUp port link far fw0 fw1 s
  | .flitReplay port link => Sys2Proof.Machine.execFlitReplay port link s
  | .linkFailure port link => Sys2Proof.Machine.execLinkFailure port link s
  | .linkRetrain port link fw0 fw1 => Sys2Proof.Machine.execLinkRetrain port link fw0 fw1 s
  | .destinationUnreachable dest => Sys2Proof.Machine.execDestinationUnreachable dest s
  | .reachableMark dest => Sys2Proof.Machine.execReachableMark dest s
  | .poisonConsumption core ctx kind addr => Sys2Proof.Machine.execPoisonConsumption core ctx kind addr s
  | .patrolScrub core => Sys2Proof.Machine.execPatrolScrub core s
  | .gearChange core => Sys2Proof.Machine.execGearChange core s
  | .gearChangeDone core => Sys2Proof.Machine.execGearChangeDone core s
  | .capControllerStep => Sys2Proof.Machine.execCapControllerStep s
  | .thermalHold die => Sys2Proof.Machine.execThermalHold die s
  | .thermalRelease die => Sys2Proof.Machine.execThermalRelease die s
  | .emergencySave => Sys2Proof.Machine.execEmergencySave s
  | .powerRemoval => Sys2Proof.Machine.execPowerRemoval s
  | .droopTrip cluster => Sys2Proof.Machine.execDroopTrip cluster s
  | .droopRecovery cluster => Sys2Proof.Machine.execDroopRecovery cluster s
  | .hbmFrequencyChange stack freq => Sys2Proof.Machine.execHbmFrequencyChange stack freq s
  | .retrainingPauseEnd stack => Sys2Proof.Machine.execRetrainingPauseEnd stack s
  | .ballastEstimate cluster => Sys2Proof.Machine.execBallastEstimate cluster s
  | .staticTick core => Sys2Proof.Machine.execStaticTick core s
  | .wearSwing die deg => Sys2Proof.Machine.execWearSwing die deg s
  | .wearFlashWrite => Sys2Proof.Machine.execWearFlashWrite s
  | .orderlyShutdown => Sys2Proof.Machine.execOrderlyShutdown s
  | .restartRestore => Sys2Proof.Machine.execRestartRestore s
  | .powerOn => Sys2Proof.Machine.execPowerOn s
  | .bootStageComplete stage => Sys2Proof.Machine.execBootStageComplete stage s
  | .fdoorSubmit f0 f1 f2 f3 => Sys2Proof.Machine.execFdoorSubmit f0 f1 f2 f3 s
  | .capsetWrite val => Sys2Proof.Machine.execCapsetWrite val s
  | .checkpointStart => Sys2Proof.Machine.execCheckpointStart s
  | .checkpointPeriod sec => Sys2Proof.Machine.execCheckpointPeriod sec s
  | .periodicCheckpoint => Sys2Proof.Machine.execPeriodicCheckpoint s
  | .checkpointComplete => Sys2Proof.Machine.execCheckpointComplete s
  | .attestationRequest addr => Sys2Proof.Machine.execAttestationRequest addr s
  | .attestationReportReady => Sys2Proof.Machine.execAttestationReportReady s
  | .klotyQueueRecord die => Sys2Proof.Machine.execKlotyQueueRecord die s
  | .hostWindowAccess addr write bytes => Sys2Proof.Machine.execHostWindowAccess addr write bytes s
  | .expanderReturn port => Sys2Proof.Machine.execExpanderReturn port s
  | .hbm4Refresh stack => Sys2Proof.Machine.execHbm4Refresh stack s
  | .chainPartialArrival id => Sys2Proof.Machine.execChainPartialArrival id s
  | .partitionChange part => Sys2Proof.Machine.execPartitionChange part s

end Sys2Proof.Machine
end

