-- ==== Sys2Proof/Machine/Step.lean ====
section
/-!
DEFINITION. One step of the module: the environment's next input, or the next action of an agent in a fixed order (DESIGN CHOICE, log entry 1).
-/

namespace Sys2Proof.Machine

open Sys2Proof

/-- Runs what was fetched: a syllable alone in its bundle as its instruction, anything else as the bundle it is. -/
def runFetched (i : Instr) (s : State) : Out :=
  match soleSyllable i with
  | some j => exec j s
  | none => exec i s
/-- The text bytes that the next bundle's words stand in, as far as its header tells. -/
def textSpan (s : State) (c x : Nat) : Nat × Nat :=
  let k := s.ctx c x
  let n := match fetchWord s c x k.regs.pc with | .ok h => 1 + wordsAfter h | .error _ => 1
  (k.info.textVa + k.regs.pc, Nat.max 4 (Nat.min (4 * n) (k.info.textSz - k.regs.pc)))
/-- The bundle at the program counter waits for a stack that retrains or a port to a peer. -/
def textPaused (s : State) (c x : Nat) : Bool :=
  let t := textSpan s c x
  fetchPaused s c t.1 t.2
/-- The fetch of a bundle counts as it starts; its repetitions and idle cycles fetch nothing (DEDUCED, log entry 72), nor does a pinned one
(R121). -/
def noteFetch (s : State) (c x : Nat) (i : Instr) : State :=
  let k := s.ctx c x
  if k.regs.rep = 0 ∧ k.regs.idleLeft = 0 ∧ pinned s c x k.regs.pc = false then
    keepPinned (countFetch s c x (k.info.textVa + k.regs.pc) (bundleLen i)) c x k.regs.pc
  else s
/-- The active context of core `c` issues the bundle at its program counter. -/
def issueStep (s : State) (c x : Nat) : Out :=
  let r := (s.ctx c x).regs
  match fetchBundle s c x r.pc with
  | .error e =>
    let b := brokenSyls s c x r.pc
    .next (fetchStop s c x (sylsOf r b.2 b.1 none) e)
  | .ok i => runFetched i (noteFetch s c x i)
/-- The context that issues next on a core, where its text can be had. -/
def nextIssuer (s : State) (c : Nat) : Option Nat :=
  (issuer s c).filter fun x => pinned s c x (s.ctx c x).regs.pc || !textPaused s c x
/-- A core's turn: what comes before its next issue, or the issue. -/
def coreTurn (c : Nat) (s : State) : Out :=
  match coreFirst s c with
  | some f => f s
  | none =>
    match nextIssuer s c with
    | some x => issueStep s c x
    | none => .next s
/-- A core can act. -/
def canAct (s : State) (c : Nat) : Bool := (coreFirst s c).isSome || (nextIssuer s c).isSome
/-- The mark in `cur` of the other agents' turn. -/
def agentsTurn : Nat := 2 ^ 16
/-- The core whose turn is next: after the last one, or the lowest once the agents have had theirs. -/
def nextCore (s : State) : Option Nat :=
  ((s.cores.map (·.1)).filter fun c => decide (s.cur ≥ agentsTurn ∨ c > s.cur)).find? (canAct s)
/-- The first action in a list that changes the state. -/
def firstMove (s : State) : List (State → Out) → Option State
  | [] => none
  | f :: rest =>
    match f s with
    | .next s' => if s' = s then firstMove s rest else some s'
    | _ => firstMove s rest
/-- The next action of the agents that are no cores. -/
def agentMove (s : State) : Option State := firstMove s (wakes s ++ s.ops.map (fun a => moveOp a.id) ++ arrivals s ++ debts s ++ services s)
/-- The machine goes on by itself. -/
def autoStep (s : State) : Out :=
  match dueFirst s with
  | some f => f s
  | none =>
    match nextCore s with
    | some c => coreTurn c { s with cur := c }
    | none => .next ((agentMove s).getD s |> fun t => { t with cur := agentsTurn })
/-- An input that stands for an event of the environment. -/
def isEvent : Instr → Bool
  | .bundleIssue .. | .dictionaryReference .. | .idleBundle .. => false
  | i => i.encode.isNone
/-- One step. -/
def step (s : State) : Host.Outcome State Fault Refusal :=
  match s.inputs with
  | .event i :: rest =>
    if !isEvent i then .next { s with inputs := rest }
    else if s.powered ∨ i = .powerOn then exec i { s with inputs := rest }
    else .fault .poweredOff
  | .turn c :: rest => if s.powered then coreTurn c { s with inputs := rest, cur := c } else .fault .poweredOff
  | .residue c x slot lane :: rest =>
    if s.powered then .next { s with inputs := rest, residue := s.residue ++ [(c, x, slot, lane)] } else .fault .poweredOff
  | [] => if s.powered then autoStep s else .fault .poweredOff

/-! ### Placing a program's first bundle (DESIGN CHOICE, log entry 5) -/

/-- The words of the bundle that holds one instruction word, and its extension word of zeros. -/
def soleWords (nbits w : Nat) : List Nat :=
  let slot := match decodeTableWord nbits w with | some i => i.slot | none => 0
  let w := w % 2 ^ nbits % 2 ^ 32
  (2 ^ (29 - slot)) :: w :: (if bitAt w 31 then [0] else [])
/-- The partition that a loaded program runs in: cores 0 to 3, the first extent, all features of this revision. -/
def loadedPart : Part :=
  { Part.none with live := true, cfg := { PartCfg.none with cores := [0, 1, 2, 3], extents := [0], feat := 0x3F } }
/-- The page its text stands in: 64 KiB at virtual address 0, readable, writable, executable. -/
def loadedPage : TlbE := { part := 0, va := 0, size := 2 ^ 16, ga := 0, flags := 0x3F, lines := [], leaf := 0, count := 0 }
/-- The instruction word in its bundle at the program counter of the supervisor's context of core 0, which the next step runs. -/
def State.withFetchWord (s : State) (nbits w : Nat) : State :=
  let ws := soleWords nbits w
  let s := s.setPart 0 loadedPart
  let s := { s with
    mem := putBytes s.mem (cells 0 (ws.flatMap (toBytes 4)))
    inputs := [], cur := agentsTurn
    host := { s.host with fack := [(0, 0x3F)], negok := true, stage := 15 } }
  let s := s.modCore 0 fun k => { k with active := some 0, last := 0, tlb := [loadedPage], part := 0, capg := 3, rails := 2 }
  s.modCtx 0 0 fun _ => { Ctx.reset with
    status := .ready, level := 1, info := { TaskInfo.none with textVa := 0, textSz := 4 * ws.length } }

end Sys2Proof.Machine
end

