-- ==== Sys2Proof/Safety.lean ====
section
/-!
DEFINITION. What the claims say of a run: memory in its canonical form, when an instruction may issue, the state its issue
leaves, and, family by family, the state that an instruction's own effect leaves at its issue, with the conditions under which
it has that effect.
-/

namespace Sys2Proof.Machine

open Sys2Proof

/-- The canonical form of memory: addresses strictly rising, no entry equal to 0, what an unlisted address reads as. -/
abbrev Memory.wf (m : KV Byte) : Bool := KV.wf 0 m
/-- Memory is in its canonical form, and so is the memory that a checkpoint or an emergency save holds. -/
abbrev MemOk (s : State) : Prop :=
  Memory.wf s.mem = true ∧ (∀ n, s.checkpoint = some n → Memory.wf n.mem = true) ∧ ∀ n, s.emergency = some n → Memory.wf n.mem = true
/-- One byte of memory. -/
def State.byte (s : State) (ga : Nat) : Byte := s.mem.get 0 ga
/-- The byte that a list of writes leaves at an address: the last one for it, or what stood there. -/
def lastByte (bytes : List (Nat × Byte)) (old : Byte) (ga : Nat) : Byte :=
  ((bytes.reverse.find? fun b => b.1 == ga).map (·.2)).getD old

/-! ### An instruction that issues alone in its bundle -/

/-- The context of the core whose turn it is, and its registers. -/
abbrev ctxOf (s : State) (x : Nat) : Ctx := s.ctx s.cur x
abbrev regsOf (s : State) (x : Nat) : Regs := (s.ctx s.cur x).regs
/-- The syllable of an instruction alone in its bundle, and its issue. -/
abbrev sole (s : State) (x : Nat) (i : Instr) : Syl := soleSyl s s.cur x i ((opOf i).getD opNop)
abbrev issOf (s : State) (x : Nat) (i : Instr) : Iss := mkIss s s.cur x (soleHead i) [sole s x i] [] (sole s x i)
/-- Where the issuing context stands. -/
abbrev whereOf (s : State) (x slot : Nat) : Where := ⟨(regsOf s x).ltime, (regsOf s x).pc, slot, (regsOf s x).rep⟩
/-- The state after a bundle of that one instruction commits, whose effect at issue left `s1`. -/
def issued (s : State) (x : Nat) (i : Instr) (s1 : State) : State :=
  commit s s.cur x (soleHead i) (mkIss s s.cur x (soleHead i) [sole s x i] []) [sole s x i] s1
/-- Hold bits name what the slot's latches hold (R115). -/
abbrev HoldsOk (s : State) (x : Nat) (i : Instr) : Prop :=
  (((opOf i).map (·.src)).getD []).any (holdBad (regsOf s x) i.slot) = false
/-- The capability that the instruction needs is in force (R8, R117, R348). -/
abbrev FeatureOk (s : State) (i : Instr) : Prop :=
  (((opOf i).bind (needsFeat i.slot)).map fun b => s.hasFeat (s.partOf s.cur) b).getD true = true
/-- Opcode 0x60 to 0x67 of the B slot (R254). -/
def privileged (i : Instr) : Bool := ((opOf i).map (·.priv)).getD false
/-- Level U may not issue it: a privileged opcode, or a `LAUNCH` that the partition has not granted to its kernels (R157, R254). -/
def barred (s : State) (i : Instr) : Bool := ((opOf i).map fun o => o.priv || o.privNow s s.cur).getD false
/-- A control instruction (R120). -/
def control (i : Instr) : Bool := ((opOf i).map (·.ctl)).getD false
/-- The context `x` of the core whose turn it is may issue the well-formed instruction `i` and has no cause to take before it:
it is the issuer, no breakpoint register matches, no residue check fails, its hold bits and its capability are right. -/
abbrev MayIssue (s : State) (x : Nat) (i : Instr) : Prop :=
  issuer s s.cur = some x ∧ bkptOf (ctxOf s x) (sole s x i) = none ∧ residueOf s s.cur x [sole s x i] = none ∧ i.wf = true ∧
  HoldsOk s x i ∧ FeatureOk s i
/-- A control instruction stands outside delay bundles and outside a loop body's last two bundles (R120). -/
abbrev ControlOk (s : State) (x : Nat) (i : Instr) : Prop :=
  control i = true → (regsOf s x).pend = none ∧ lastTwo s s.cur x ((regsOf s x).pc + (soleHead i).len) = false
/-- It may issue, and neither its privilege nor its place as a control instruction stops it (R254, R120). -/
abbrev Ready (s : State) (x : Nat) (i : Instr) : Prop :=
  MayIssue s x i ∧ (barred s i = true → (ctxOf s x).level ≠ 0) ∧ ControlOk s x i
/-- Nothing of the context is in flight, no transfer of it is pending, it is in no segment and no delay bundle, and no other
agent's cause waits for it. -/
abbrev Calm (s : State) (x : Nat) : Prop :=
  (regsOf s x).inflight = [] ∧ (regsOf s x).xfers = [] ∧ (ctxOf s x).seg = none ∧ (regsOf s x).pend = none ∧ (ctxOf s x).dep = none
/-- The bundle of `i` does not end the body of an active hardware loop (R145). -/
abbrev NoLoopEnd (s : State) (x : Nat) (i : Instr) : Prop :=
  ∀ l < 4, ((regsOf s x).loop l).act = true → ((regsOf s x).loop l).exit ≠ (regsOf s x).pc + (soleHead i).len
/-- What an issue that writes nothing but registers of the issuing context leaves as it is: all of memory, every other core and
context, the core's matrix storage, barriers and queues, every special register of the context; its energy is charged (R341). -/
abbrev OnlyRegs (s t : State) (x : Nat) : Prop :=
  t = { s with cores := t.cores, parts := t.parts, power := t.power } ∧ t.power = { s.power with issued := t.power.issued } ∧
  (∀ p, t.part p = { s.part p with charged := (t.part p).charged }) ∧ (∀ c, c ≠ s.cur → t.core c = s.core c) ∧
  t.core s.cur = { s.core s.cur with ctxs := (t.core s.cur).ctxs } ∧ (∀ y, y ≠ x → ctxOf t y = ctxOf s y) ∧
  ctxOf t x = { ctxOf s x with
    regs := regsOf t x, energy := (ctxOf t x).energy, ensat := (ctxOf t x).ensat,
    stepPending := (ctxOf s x).stepPending && !(ctxOf s x).stepping }
/-- The registers after an issue that moves on by `len` bytes, from registers `r` in which the results of latency 1 stand: the rest
of the results are in flight; hold latches, sticky records and the lists of recent stores and `VJOIN`s are kept apart. -/
abbrev MovedOn (r : Regs) (len : Nat) (later : List InFlight) (q : Regs) : Prop :=
  q = { r with
    ltime := r.ltime + 1, pc := r.pc + len, rep := 0, idleLeft := 0, inflight := later, holds := q.holds, sticky := q.sticky,
    recent := q.recent, vjoins := q.vjoins }
/-- An operation may make its event: it exists, what it waits for has been done, and its ports have granted its next unit (R19). -/
abbrev Pending (s : State) (id : Nat) (a : Async) (k : OpK) : Prop :=
  s.findOp id = some a ∧ s.afterDone a = true ∧ a.kind = k ∧ a.unacked = false ∧ granted s a = true
/-- Lowest address of a write's bytes. -/
abbrev lowest (bytes : List (Nat × Byte)) : Nat := (bytes.map (·.1)).foldl Nat.min ((bytes.headD (0, 0)).1)
/-- The bytes, by virtual address, that a store or a stamp writes, and the release that a stamp carries. -/
def OpK.writes : OpK → Option (List (Nat × Byte) × Option Rel)
  | .store bytes => some (bytes, none)
  | .stamp va v r => some (cells va (toBytes 8 v), some r)
  | .arrive _ _ [] _ (some (va, v, r)) => some (cells va (toBytes 8 v), some r)
  | _ => none
/-- The event by which a posted access performs or goes out. -/
def OpK.event (id : Nat) : OpK → Instr
  | .store _ => .postedStorePerform id
  | .atom .. => .atomicPerform id
  | _ => .stampWrite id
/-- An effect outside the core is allowed: outside a segment, or in its rendezvous bundle (R48). -/
def Iss.mayLeave (j : Iss) : Bool := !j.inSeg || j.rdv
/-- A condition of an effect. -/
def need (b : Bool) : Option Unit := if b then some () else none

/-! ### Scalar results (R55, R56, R131 to R138) -/

/-- A result that a failed guard suppresses (R131). -/
def guarded (r : Regs) (p : Nat) (pn : Bool) (q : Res) : Option Res := if guard r p pn then some q else none
/-- The exact product's high half. -/
def highHalf (u : Bool) (a b : Word) : Word :=
  if u then ((a.setWidth 128 * b.setWidth 128) >>> 64).setWidth 64 else ((a.signExtend 128 * b.signExtend 128) >>> 64).setWidth 64
/-- Latency and result of a scalar instruction; no result where its guard fails. -/
def scalarRes (r : Regs) : Instr → Option (Nat × Option Res)
  | .add e d a b p pn => some (1, guarded r p pn (.g d (r.rg a + src2 r e b)))
  | .sub e d a b p pn => some (1, guarded r p pn (.g d (r.rg a - src2 r e b)))
  | .mul e d a b p pn => some (3, guarded r p pn (.g d (r.rg a * src2 r e b)))
  | .and e d a b p pn => some (1, guarded r p pn (.g d (r.rg a &&& src2 r e b)))
  | .or e d a b p pn => some (1, guarded r p pn (.g d (r.rg a ||| src2 r e b)))
  | .xor e d a b p pn => some (1, guarded r p pn (.g d (r.rg a ^^^ src2 r e b)))
  | .andn e d a b p pn => some (1, guarded r p pn (.g d (r.rg a &&& ~~~(src2 r e b))))
  | .shl e d a b p pn => some (1, guarded r p pn (.g d (r.rg a <<< ((src2 r e b).toNat % 256))))
  | .shr e d a b p pn => some (1, guarded r p pn (.g d (r.rg a >>> ((src2 r e b).toNat % 256))))
  | .sra e d a b p pn => some (1, guarded r p pn (.g d ((r.rg a).sshiftRight ((src2 r e b).toNat % 256))))
  | .rot e d a b p pn => some (1, guarded r p pn (.g d ((r.rg a).rotateLeft ((src2 r e b).toNat % 256))))
  | .mulh e d a b p pn u => some (3, guarded r p pn (.g d (highHalf u (r.rg a) (src2 r e b))))
  | .div e d a b p pn u => some (12, guarded r p pn (.g d (divW u (r.rg a) (src2 r e b))))
  | .rem e d a b p pn u => some (12, guarded r p pn (.g d (remW u (r.rg a) (src2 r e b))))
  | .min e d a b p pn u => some (1, guarded r p pn (.g d (if ltW u (r.rg a) (src2 r e b) then r.rg a else src2 r e b)))
  | .max e d a b p pn u => some (1, guarded r p pn (.g d (if ltW u (r.rg a) (src2 r e b) then src2 r e b else r.rg a)))
  | .clz d a p pn => some (1, guarded r p pn (.g d (BitVec.ofNat 64 ((List.range 64).takeWhile fun k => !(r.rg a).getMsbD k).length)))
  | .popc d a p pn => some (1, guarded r p pn (.g d (BitVec.ofNat 64 ((List.range 64).filter fun k => (r.rg a).getLsbD k).length)))
  | .cmp e pd cond a b p pn u => some (1, guarded r p pn (.p pd (
      let x := r.rg a
      let y := src2 r e b
      match cond with | 0 => decide (x = y) | 1 => decide (x ≠ y) | 2 => ltW u x y | _ => !ltW u x y)))
  | .sel e d a b ps pn => some (1, some (.g d (if guard r ps pn then r.rg a else src2 r e b)))
  | .ldi d imm => some (1, some (.g d ((BitVec.ofNat 18 imm).signExtend 64)))
  | .ldiExt e d => some (1, some (.g d ((BitVec.ofNat 32 e).signExtend 64)))
  | .ldiHi e d => some (1, some (.g d (BitVec.ofNat 32 e ++ (r.rg d).setWidth 32)))
  | .pand pd pa pb na nb => some (1, some (.p pd ((r.rp pa ^^ na) && (r.rp pb ^^ nb))))
  | .por pd pa pb na nb => some (1, some (.p pd ((r.rp pa ^^ na) || (r.rp pb ^^ nb))))
  | .pxor pd pa pb na nb => some (1, some (.p pd (r.rp pa ^^ na ^^ r.rp pb ^^ nb)))
  | .pnot pd pa na => some (1, some (.p pd (!(r.rp pa ^^ na))))
  | _ => none
/-- A result on its way (R119). -/
def Iss.emitAny (j : Iss) (q : Nat × Option Res) (s : State) : State := q.2.elim s fun r => j.emit q.1 r s

/-! ### Special and address registers (R139 to R142) -/

def specialEffect (j : Iss) (s : State) : Instr → Option State
  | .srd d sr idx p pn =>
    if !guard j.regs p pn then some s
    else if sr = 0x01 then some (j.emit 1 (.g d (BitVec.ofNat 64 s.now)) s.sampled)
    else some (j.emit 1 (.g d (BitVec.ofNat 64 (srValue j s sr idx))) s)
  | .swr a sr idx p pn =>
    if !guard j.regs p pn then some s
    else if sr = 0x05 then (do
      need ((j.regs.rg a).toNat % 8 < 4)
      some (j.emit 1 (.fmtSet (j.regs.rg a).toNat) s))
    else some (j.emit 1 (.lc idx ((j.regs.rg a).toNat % 2 ^ 32)) s)
  | _ => none
/-- What a special register reads, by its selector and index (R36, R66, R139, R140): the value `v` of the core whose turn it is. -/
def srReads (s : State) (x sr idx v : Nat) : Prop :=
  let k := ctxOf s x
  let r := regsOf s x
  let p := s.partOf s.cur
  let l := r.loop idx
  (sr = 0x00 ∧ v = r.ltime) ∨ (sr = 0x01 ∧ v = s.now) ∨
  (∃ req cap, sr = 0x02 ∧ k.gearReq = req ∧ (s.core s.cur).capg = cap ∧ req < 4 ∧ cap < 4 ∧
    v = (if req < cap then req else cap) + 4 * req + 256 * cap) ∨
  (sr = 0x03 ∧ v = k.energy) ∨ (sr = 0x04 ∧ v = k.ensat.toNat) ∨ (sr = 0x05 ∧ v = r.fmtctl) ∨
  (sr = 0x06 ∧ v = (if idx = 0 then k.sched0 else k.sched1).toNat) ∨
  (sr = 0x07 ∧ idx < 8 ∧ v < 2 ^ 64 ∧
    ∀ e < 64, v.testBit e = decide ((s.slots.get SlotTab.reset (slotKey s.cur idx)).own.get 0 e = p + 1)) ∨
  (sr = 0x07 ∧ idx = 8 ∧ v = (s.part p).cfg.strict.toNat) ∨
  (∃ d c n, sr = 0x08 ∧ d < 4 ∧ c < 16 ∧ n < 8 ∧ s.cur = 128 * d + 8 * c + n ∧ v = 512 * (Config.moduleNumber 0).toNat + s.cur) ∨
  (sr = 0x09 ∧ v = x) ∨ (sr = 0x0A ∧ v = p % 128) ∨
  (sr = 0x0B ∧ v = if idx = 0 then (s.host.fack.get 0 0) &&& (s.part p).cfg.feat else 0) ∨
  (sr = 0x0C ∧ v = r.rlc idx) ∨ (sr = 0x0D ∧ v = if l.act = true then 2 ^ 32 + l.index % 2 ^ 32 else 0)
def addressEffect (j : Iss) (s : State) : Instr → Option State
  | .amov ad as str =>
    let t := j.emit 1 (.a ad (j.regs.ra as)) s
    some (if str then emitStrides j ad (j.regs.rstr as) t else t)
  | .aadd e ad as gn => some (j.emit 1 (.a ad (j.regs.ra as + (src2 j.regs e gn).setWidth 57)) s)
  | .aldi e ad gn imm => some (j.emit 1 (.a ad ((j.regs.rg gn).setWidth 57 + match e with
      | some x => (BitVec.ofNat 32 x).signExtend 57
      | none => (BitVec.ofNat 14 imm).signExtend 57)) s)
  | .astr e ad lvl gn => some (j.emit 1 (.stride ad lvl ((src2 j.regs e gn).setWidth 57)) s)
  | .aget d as ss lvl => some (j.emit 1 (.g d (if ss then (j.regs.rstr as lvl).signExtend 64 else (j.regs.ra as).setWidth 64)) s)
  | .aclr mask adr => some (((List.range 16).filter (mask.testBit ·)).foldl (fun t n =>
      let t := emitStrides j n (fun _ => 0) t
      if adr then j.emit 1 (.a n 0) t else t) s)
  | _ => none

/-! ### Transfers of control and the rest of the B slot (R143 to R157, R256) -/

def transferEffect (j : Iss) (s : State) : Instr → Option State
  | .br off => some (pendTo j (.jump (relTarget j off 24)) s)
  | .brp p pn off => some (pendTo j (if guard j.regs p pn then .jump (relTarget j off 18) else .untaken) s)
  | .brr a => some (pendTo j (.jump (j.regs.rg a).toNat) s)
  | .ret a => some (pendTo j (.jump (j.regs.rg a).toNat) s)
  | .call link off => some (j.emit 1 (.g link (BitVec.ofNat 64 (afterDelay s j))) (pendTo j (.jump (relTarget j off 18)) s))
  | .loop lvl lcn pin off => do
    let start := afterDelay s j
    let exit := j.pc + 4 * off
    need (!loopTableBad j.me lvl && !loopNestBad j.me lvl start exit)
    let sh := loopShare j.me lvl (j.regs.rlc lcn)
    let s := if pin && pinnable s j exit 64 start then s.modCore j.core (Core.pinBody start exit) else s
    some (pendTo j (.loopEnter lvl) (s.modRegs j.core j.ctx fun r => { r with loops := r.loops.set lvl ⟨false, sh.2, start, exit, sh.1⟩ }))
  | .loopEnd lvl => some (pendTo j (.loopEnd lvl) s)
  | .endk => do
    need j.mayLeave
    some (pendTo j .endk s)
  | .eret => do
    need (j.me.sstat % 2 == 1)
    some (pendTo j .eret s)
  | _ => none
def controlEffect (j : Iss) (s : State) : Instr → Option State
  | .nop => some s
  | .trap _ => some s
  | .gear gr => some (s.modCtx j.core j.ctx fun k => { k with gearReq := gr % 4 })
  | .gearReg gn => some (s.modCtx j.core j.ctx fun k => { k with gearReq := (j.regs.rg gn).toNat % 4 })
  | .lqstat d pri =>
    let q := (s.core j.core).lq
    some (j.emit 1 (.g d (BitVec.ofNat 64 ((q.filter fun e => e.pri == pri).length + (32 - q.length) * 2 ^ 16))) s)
  | .dlchk pd gn t => do
    let now := s.now % 2 ^ 64
    need (!t || decide (now ≤ (j.regs.rg gn).toNat))
    some (j.emit 1 (.p pd (decide (now ≤ (j.regs.rg gn).toNat))) s.sampled)
  | .launch a pri => do
    let p := s.partOf j.core
    let va := (j.regs.rg a).toNat
    need (decide ((intakeOf s j.core j.ctx).length < 16) && (j.me.level != 0 || (s.part p).pctl % 2 != 0) && j.mayLeave && va % 64 == 0)
    some (s.modPart p fun q => { q with
      intake := q.intake.set (4 * j.core + j.ctx) (q.intake.get [] (4 * j.core + j.ctx) ++ [⟨va, pri, j.core, j.ctx, j.lt, j.pc, j.me.info.task, j.me.info.seq, j.me.level⟩]) })
  | _ => none
/-- A value of a register or of the zero-extended extension in its place. -/
abbrev Iss.gz (j : Iss) (e : Option Nat) (g : Nat) : Nat := (gOrZext j.regs e g).toNat
def syncEffect (j : Iss) (s : State) : Instr → Option State
  | .bwait e bar gn => do
    let b := (s.core j.core).bars.get Barrier.start bar
    need (!b.brk && b.exp != 0 && b.met (j.gz e gn % 2 ^ 32))
    some (s.modCore j.core fun k => { k with k := mergeVec b.kv k.k })
  | .barv e bar gn scope tset => do
    let k := j.me.info
    let phase := (j.regs.rg gn).toNat % 2 ^ 32
    let cores := targetCores s j.core k.task tset (e.getD 0)
    need (j.mayLeave && !cores.isEmpty && cores.all (runsTask s j.core k.task))
    let (t, r) ← release s j.core scope
    let u := postArrival j t bar phase cores r
    let signal := mkOp u j.core j.ctx j.at_ (allBefore t j.core j.ctx) (.signal 0 0 0 0)
    some (noteJoin j (postSignals signal k.group bar phase (taskPeers u (u.partOf j.core) k.group tset) u))
  | .binit e bar gn => do
    need j.mayLeave
    some (s.modCore j.core fun k => { k with bars := k.bars.set bar ⟨j.gz e gn % 2 ^ 16, 0, 0, 0, false, []⟩ })
  | .monwait e mon gn => do
    let m := (s.ctx j.core j.ctx).mons.get Monitor.start mon
    need (m.armed && m.value.any fun v => decide (v ≥ j.gz e gn))
    some (acquireOpt s j.core m.from_)
  | .monarm mon a => do
    let va := (j.regs.rg a).toNat
    need (va % 8 == 0 && !j.hole s va)
    let put := fun (m : Monitor) (s : State) => s.modCtx j.core j.ctx fun k => { k with mons := k.mons.set mon m }
    match (if j.inOwn va 8 then j.gas false 8 va else none) with
    | some gas =>
      need (!(gas.any fun ga => s.poisoned (ga / 64)))
      some (put ⟨true, gas.headD 0, some (readNat s.mem 8 (gas.headD 0)), (s.locKnow.find (gas.headD 0)).filter (!·.atom), none⟩ s)
    | none =>
      let after := fenced s j.core j.ctx true ++ sameGranule s j.core j.ctx [va / 64] ++ nmFenced s j.core j.ctx [va]
      some (put ⟨true, 0, none, none, some s.nextId⟩ (s.post (mkOp s j.core j.ctx j.at_ after (.monRead mon va))))
  | .stamp e scope a gv => do
    let va := (j.regs.rg a).toNat
    let v := j.gz e gv
    need (va % 8 == 0 && !j.hole s va)
    if j.inOwn va 8 then
      let gas := (j.gas false 8 va).getD []
      need (writeWait j s 2 gas == .ok)
      let bytes := gas.zip (toBytes 8 v)
      let t ← reserve s j.core j.ctx ((unitsOf bytes).map fun u => (0, u))
      let (t, r) ← release t j.core scope
      if (allBefore s j.core j.ctx).isEmpty then some (j.emit 2 (.cstore bytes (some r)) (noteJoin j t))
      else
        let t := logUnits t j.core j.ctx 0 (unitsOf bytes)
        some (noteJoin j (t.post { mkOp t j.core j.ctx j.at_ (allBefore s j.core j.ctx) (.ownStamp bytes r) with j := (s.core j.core).j }))
    else
      need j.mayLeave
      let (t, r) ← release s j.core scope
      let s := t.post { mkOp t j.core j.ctx j.at_ (allBefore s j.core j.ctx) (.stamp va v r) with j := (s.core j.core).j }
      some (noteJoin j (s.charge j.core j.ctx (fabricCharge (farBytes j s (seqFrom va 8)))))
  | .vjoin => some (s.modRegs j.core j.ctx fun r => { r with vjoins := j.lt :: r.vjoins })
  | .fence scope => do
    let (t, r) ← release (fenceAcquire j scope s (s.ctx j.core j.ctx).seen) j.core scope
    let before := earlier t j.core j.ctx OpK.isAccess ++ (if scope = 5 then farBefore t j.core j.ctx else [])
    let live := fun (l : List Nat) => l.filter fun d => !t.isDone d
    some (t.modCtx j.core j.ctx fun k => { k with
      lastFence := some ({ r with atom := true }.after k.lastFence)
      seen := k.seen.filter fun r => decide (scope < Nat.max r.scope (scopeOf r.core j.core))
      fences := ((k.fences ++ [(scope, (t.core j.core).j, before)]).map fun f => (f.1, f.2.1, live f.2.2)).filter fun f => !f.2.2.isEmpty
      regs := { k.regs with unfenced := k.regs.unfenced.filter fun u => decide (u.iss ≥ j.lt) } })
  | .nmfence =>
    let k := s.ctx j.core j.ctx
    let hbmStacks := stacksOf s k.nmUnfenced
    let t := s.modCtx j.core j.ctx fun k => { k with nmUnfenced := [] }
    if hbmStacks.isEmpty then some t
    else some ((t.post (mkOp s j.core j.ctx j.at_ [] (.nmfence hbmStacks k.nmUnfenced))).modCtx j.core j.ctx fun k =>
      { k with nmFences := k.nmFences ++ [s.nextId] })
  | _ => none

/-! ### Loads and stores (R159 to R165, R227) -/

/-- `n` bytes at an address of the own scratchpad are read at the issue: aligned, no granule of them due and unwritten, stored in
the view they are read in, free of poison. -/
def readable (j : Iss) (s : State) (swz : Bool) (align n va : Nat) : Bool :=
  va % align == 0 && j.inOwn va n && (match j.gas swz n va with
    | none => false
    | some gas => readWait j s gas == .ok && !viewBad j s swz gas && !(gas.any fun ga => s.poisoned (ga / 64)))
/-- The number those bytes hold. -/
def readAt (j : Iss) (s : State) (swz : Bool) (n va : Nat) : Nat := ofBytes (gather s.mem ((j.gas swz n va).getD []))
def loadEffect (j : Iss) (s : State) : Instr → Option State
  | .ld e d an sz sx off => do
    let va := ldAddr e an sz off j
    need (readable j s false (2 ^ sz) (2 ^ sz) va)
    some (j.emit 4 (.g d (ldValue sz sx (readAt j s false (2 ^ sz) va))) s)
  | .vld e vd an tag off => do
    let va := vldAddr e an off j
    need (readable j s false 64 256 va)
    some (j.emit 4 (.v vd (vecOf tag (readAt j s false 256 va))) s)
  | .vldw e pr an tag blk off => do
    let va := vldwAddr e an off j
    need (readable j s false 64 512 va)
    let x := readAt j s false 512 va
    let t := pairTag tag blk
    some (j.emit 4 (.v (2 * pr + 1) (vecOf t (x >>> 2048))) (j.emit 4 (.v (2 * pr) (vecOf t (x % 2 ^ 2048))) s))
  | .pld e md an off => do
    let va := pldAddr e an off j
    need (readable j s false 32 32 va)
    some (j.emit 4 (.m md (BitVec.ofNat 256 (readAt j s false 32 va))) s)
  | .vgth e vd vi an mk tag => do
    let n := tagWidth tag / 8
    let lanes := laneAddrs e vi an mk tag j
    need ((j.regs.rv vi).tag == 3 && lanes.all fun l => readable j s true n n l.2)
    some (j.emit 4 (.v vd (vreg tag ((List.range (tagCount tag)).map fun k => match lanes.find? fun l => l.1 == k with
      | some l => readAt j s true n l.2
      | none => (j.regs.rv vd).elem tag k))) s)
  | .mfill e os grp an off => do
    let va := mfillAddr e an off j
    need (claimed s j.core j.ctx 0 os && readable j s true 1024 1024 va)
    let s' ← reserve s j.core j.ctx ((seqFrom (8 * grp) 8).flatMap (osLines os))
    let x := readAt j s true 1024 va
    some ((List.range 8).foldl (fun t q => j.emit 4 (.os (64 * os + 8 * grp + q) (BitVec.ofNat 1024 (x >>> (1024 * q)))) t) s')
  | _ => none
/-- A store of these accesses: no granule it needs is due and missing, and it meets no fault. -/
def stored (j : Iss) (s : State) (swz : Bool) (acc : List (List (Nat × Byte))) : Option State := do
  need (storeWait j s (storeGas j swz (acc.flatMap id)) == .ok)
  (storeAll j s swz acc).toOption
/-- The bytes of one linear store, by virtual address, with its alignment and the tags of its source. -/
def storeCells (j : Iss) : Instr → Option (Nat × Nat × Bool × List (Nat × Byte))
  | .st e gs an sz off =>
    some (ldAddr e an sz off j, 2 ^ sz, true, cells (ldAddr e an sz off j) (toBytes (2 ^ sz) (j.regs.rg gs).toNat))
  | .vst e vs an tag mk off =>
    let va := vstAddr e an off j
    let v := j.regs.rv vs
    some (va, 64, tag == 0 || v.tag == tag,
      ((List.range 256).filter fun b => tag == 0 || (j.regs.rm mk).getLsbD (8 * b / tagWidth tag)).map fun b =>
        (va + b, BitVec.ofNat 8 (v.bits.toNat >>> (8 * b))))
  | .vstw e pr an tag blk off =>
    let va := vldwAddr e an off j
    let t := pairTag tag blk
    let a := j.regs.rv (2 * pr)
    let b := j.regs.rv (2 * pr + 1)
    some (va, 64, t == 0 || (a.tag == t && b.tag == t), cells va (toBytes 256 a.bits.toNat ++ toBytes 256 b.bits.toNat))
  | .pst e ms an off => some (pldAddr e an off j, 32, true, cells (pldAddr e an off j) (toBytes 32 (j.regs.rm ms).toNat))
  | _ => none
/-- The accesses of a store, in their view: one of a linear store, one for each active lane of a scatter. -/
def storeAccesses (j : Iss) : Instr → Option (Bool × List (List (Nat × Byte)))
  | .vsct e vs vi an mk tag => some (true, laneStores e vs vi an mk tag j)
  | i => (storeCells j i).map fun q => (false, [q.2.2.2])
def storeEffect (j : Iss) (s : State) : Instr → Option State
  | .vsct e vs vi an mk tag => do
    let acc := laneStores e vs vi an mk tag j
    need ((j.regs.rv vi).tag == 3 && (j.regs.rv vs).tag == tag && (laneAddrs e vi an mk tag j).all fun l => l.2 % (tagWidth tag / 8) == 0)
    stored j s true acc
  | i => do
    let (va, align, tags, bytes) ← storeCells j i
    need (va % align == 0 && tags)
    stored j s false [bytes]

/-! ### Vector results (R52 to R79, R196 to R221) -/

/-- Every source carries its tag (R53). -/
def tagsOk (j : Iss) (e : Option Nat) (rs : List (Nat × Nat)) : Bool := rs.zipIdx.all fun q => (vsrc j e q.2 q.1.1).tag == q.1.2
/-- The flags of a result's elements. -/
def flagsOf (tag : Nat) (f : Nat → Option (Nat × Nat)) : List Nat :=
  (List.range (tagCount tag)).map fun k => ((f k).map (·.2)).getD 0
/-- The flag update of a result, none where an enabled exception traps (R67). -/
def flagged (j : Iss) (lat : Nat) (fl : List Nat) (s : State) : Option State :=
  if orAll fl &&& enabledOf j ≠ 0 then none else some (if orAll fl = 0 then s else j.emit lat (.fmtOr (orAll fl)) s)
/-- A vector result: element `k` is what `f k` gives, or where it gives none the destination's bits at issue (R196), under the
bound register's check (R221); none where a floating-point exception or the bound traps. -/
def landed (j : Iss) (lat vd tag : Nat) (u : Bool) (f : Nat → Option (Nat × Nat)) (s : State) : Option State := do
  let s ← flagged j lat (flagsOf tag f) s
  (emitV j lat vd tag u ((List.range (tagCount tag)).map fun k => match f k with
    | some r => (r.1, true)
    | none => ((j.regs.rv vd).elem tag k, false)) s).toOption

/-- An element-wise instruction of layout E: latency, extension, destination, mask, tag, whether unsigned, sources with their tags,
and what an element becomes, with its flags. -/
structure ElemOp where
  lat : Nat
  ext : Option Nat
  vd : Nat
  mask : Nat
  tag : Nat
  u : Bool
  src : List (Nat × Nat)
  f : RMode → Nat → Nat → Nat → Nat × Nat
/-- The state that an element-wise instruction's effect leaves. -/
def ElemOp.effect (q : ElemOp) (j : Iss) (s : State) : Option State := do
  need (tagsOk j q.ext q.src)
  landed j q.lat q.vd q.tag q.u (fun k =>
    if (j.regs.rm q.mask).getLsbD k then
      some (q.f (rmOf j) (srcElem j q.ext q.src 0 k) (srcElem j q.ext q.src 1 k) (srcElem j q.ext q.src 2 k))
    else none) s
def int2 (e : Option Nat) (vd va vb mk ft : Nat) (u : Bool) (f : Nat → Nat → Nat → Nat) : Option ElemOp :=
  some ⟨2, e, vd, mk, ft, u, [(va, ft), (vb, ft)], fun _ a b _ => (f (tagWidth ft) a b, 0)⟩
def int1 (e : Option Nat) (vd va mk ft : Nat) (u : Bool) (f : Nat → Nat → Nat) : Option ElemOp :=
  some ⟨2, e, vd, mk, ft, u, [(va, ft)], fun _ a _ _ => (f (tagWidth ft) a, 0)⟩
/-- The integer instructions of R200: exact results of the elements read as integers, wrapped, saturated or shifted by R54 and R56. -/
def intElem : Instr → Option ElemOp
  | .vadd e vd va vb mk ft u => int2 e vd va vb mk ft u fun w a b => wrapI (intOf u a w + intOf u b w) w
  | .vsub e vd va vb mk ft u => int2 e vd va vb mk ft u fun w a b => wrapI (intOf u a w - intOf u b w) w
  | .vmul e vd va vb mk ft u => int2 e vd va vb mk ft u fun w a b => wrapI (intOf u a w * intOf u b w) w
  | .vmulh e vd va vb mk ft u => int2 e vd va vb mk ft u fun w a b => wrapI (intOf u a w * intOf u b w / 2 ^ w) w
  | .vsadd e vd va vb mk ft u => int2 e vd va vb mk ft u fun w a b =>
      wrapI ((if u then satU else satS) (intOf u a w + intOf u b w) w) w
  | .vssub e vd va vb mk ft u => int2 e vd va vb mk ft u fun w a b =>
      wrapI ((if u then satU else satS) (intOf u a w - intOf u b w) w) w
  | .vmin e vd va vb mk ft u => int2 e vd va vb mk ft u fun w a b => wrapI (min (intOf u a w) (intOf u b w)) w
  | .vmax e vd va vb mk ft u => int2 e vd va vb mk ft u fun w a b => wrapI (max (intOf u a w) (intOf u b w)) w
  | .vabs e vd va mk ft u => int1 e vd va mk ft u fun w a => wrapI (intOf u a w).natAbs w
  | .vneg e vd va mk ft u => int1 e vd va mk ft u fun w a => wrapI (-intOf u a w) w
  | .vshl e vd va vb mk ft u => int2 e vd va vb mk ft u fun w a b => if b % 256 ≥ w then 0 else wrapI (a * 2 ^ (b % 256)) w
  | .vshr e vd va vb mk ft u => int2 e vd va vb mk ft u fun _ a b => a / 2 ^ (b % 256)
  | .vsra e vd va vb mk ft u => int2 e vd va vb mk ft u fun w a b => wrapI (sgn a w / 2 ^ (b % 256)) w
  | .vclz e vd va mk ft u => int1 e vd va mk ft u fun w a => ((List.range w).takeWhile fun k => !a.testBit (w - 1 - k)).length
  | .vpopc e vd va mk ft u => int1 e vd va mk ft u fun w a => ((List.range w).filter a.testBit).length
  | _ => none
def fp (e : Option Nat) (vd mk ft : Nat) (rs : List (Nat × Nat)) (f : RMode → Nat → Nat → Nat → Nat × Nat) : Option ElemOp :=
  some ⟨4, e, vd, mk, ft, false, rs, f⟩
/-- A sign operation: a NaN becomes the canonical NaN, a signalling one sets IV (R58, R203). -/
def signOp (ft : Nat) (f : Nat → Nat) (a : Nat) : Nat × Nat :=
  if (decodeVal ft a).isNan then (canonNaN ft, if (decodeVal ft a).isSig then flagIV else 0) else (f a, 0)
/-- The floating-point and special-function instructions of R203, R205 and R220. -/
def fpElem : Instr → Option ElemOp
  | .vfadd e vd va vb mk ft => fp e vd mk ft [(va, ft), (vb, ft)] fun m a b _ => fadd ft m a b
  | .vfsub e vd va vb mk ft => fp e vd mk ft [(va, ft), (vb, ft)] fun m a b _ => fsub ft m a b
  | .vfmul e vd va vb mk ft => fp e vd mk ft [(va, ft), (vb, ft)] fun m a b _ => fmul ft m a b
  | .vfma e vd va vb mk ft => fp (some e) vd mk ft [(va, ft), (vb, ft), (e / 2 ^ 24 % 2 ^ 5, ft)] (fma ft)
  | .vfms e vd va vb mk ft => fp (some e) vd mk ft [(va, ft), (vb, ft), (e / 2 ^ 24 % 2 ^ 5, ft)] (fms ft)
  | .vfnma e vd va vb mk ft => fp (some e) vd mk ft [(va, ft), (vb, ft), (e / 2 ^ 24 % 2 ^ 5, ft)] (fnma ft)
  | .vfmin e vd va vb mk ft => fp e vd mk ft [(va, ft), (vb, ft)] fun _ a b _ => fminmax ft false a b
  | .vfmax e vd va vb mk ft => fp e vd mk ft [(va, ft), (vb, ft)] fun _ a b _ => fminmax ft true a b
  | .vfabs e vd va mk ft => fp e vd mk ft [(va, ft)] fun _ a _ _ => signOp ft (fun a => a % 2 ^ (tagWidth ft - 1)) a
  | .vfneg e vd va mk ft => fp e vd mk ft [(va, ft)] fun _ a _ _ => signOp ft (fun a => a ^^^ 2 ^ (tagWidth ft - 1)) a
  | .vfexp e vd va mk ft =>
      some ⟨4, e, vd, mk, if ft = 10 then 3 else 2, false, [(va, ft)], fun _ a _ _ => fexpInt ft (tagWidth ft) a⟩
  | .vfscl e vd va vb mk ft =>
      fp e vd mk ft [(va, ft), (vb, if ft = 10 then 3 else 2)] fun m a b _ => fscl ft m a (sgn b (tagWidth ft))
  | .fexp2 e vd va mk => some ⟨10, e, vd, mk, 10, false, [(va, 10)], fun _ a _ _ => fexp2 (decodeVal 10 a)⟩
  | .flog2 e vd va mk => some ⟨10, e, vd, mk, 10, false, [(va, 10)], fun _ a _ _ => flog2 (decodeVal 10 a)⟩
  | .frcp e vd va mk => some ⟨8, e, vd, mk, 10, false, [(va, 10)], fun m a _ _ => frcp m (decodeVal 10 a)⟩
  | .frsq e vd va mk => some ⟨6, e, vd, mk, 10, false, [(va, 10)], fun _ a _ _ => frsq (decodeVal 10 a)⟩
  | _ => none

/-- Bitwise logic on the sources' bits, whatever their tags (R201). -/
def logicEffect (j : Iss) (s : State) : Instr → Option State
  | .vand e vd va vb mk ft u => go e vd va vb mk ft u (· &&& ·)
  | .vor e vd va vb mk ft u => go e vd va vb mk ft u (· ||| ·)
  | .vxor e vd va vb mk ft u => go e vd va vb mk ft u (· ^^^ ·)
  | .vandn e vd va vb mk ft u => go e vd va vb mk ft u (fun a b => a &&& ~~~b)
  | _ => none
where
  go (e : Option Nat) (vd va vb mk ft : Nat) (u : Bool) (f : Vec → Vec → Vec) : Option State :=
    let x : Vec := f (vsrc j e 0 va).bits (vsrc j e 1 vb).bits
    if ft = 0 then some (j.emit 2 (.v vd ⟨x, 0⟩) s)
    else landed j 2 vd ft u (fun k => if (j.regs.rm mk).getLsbD k then some (elem (tagWidth ft) x.toNat k, 0) else none) s
/-- A mask whose bit `k` is `f k`, clear from bit `n` on. -/
def maskFrom (n : Nat) (f : Nat → Bool) : Mask := BitVec.ofNat 256 (((List.range n).filter f).map (2 ^ ·)).sum
/-- Compares and classes (R202, R204). -/
def compareEffect (j : Iss) (s : State) : Instr → Option State
  | .vcmp e md va vb cond ft u => do
    need (tagsOk j e [(va, ft), (vb, ft)])
    let at_ := fun (p r k : Nat) => intOf u ((vsrc j e p r).elem ft k) (tagWidth ft)
    some (j.emit 2 (.m md (maskFrom (tagCount ft) fun k =>
      let a := at_ 0 va k
      let b := at_ 1 vb k
      match cond with
      | 0 => a = b | 1 => a ≠ b | 2 => a < b | 3 => a ≤ b | 4 => a > b | _ => a ≥ b)) s)
  | .vfcmp e md va vb cond ft => do
    need (tagsOk j e [(va, ft), (vb, ft)])
    let r := fun k => fcmp ft cond ((vsrc j e 0 va).elem ft k) ((vsrc j e 1 vb).elem ft k)
    let s ← flagged j 4 ((List.range (tagCount ft)).map fun k => (r k).2) s
    some (j.emit 4 (.m md (maskFrom (tagCount ft) fun k => (r k).1)) s)
  | .vfcls e md va cls ft => do
    need (tagsOk j e [(va, ft)])
    some (j.emit 4 (.m md (maskFrom (tagCount ft) fun k => cls.testBit (fclass ft ((vsrc j e 0 va).elem ft k)))) s)
  | _ => none

/-- Conversions and quantising (R206 to R209): the source element of each destination element by `cvtPlace`. -/
def convertEffect (j : Iss) (s : State) : Instr → Option State
  | .vcvt e vd va tt ft part su du => do
    need (tagsOk j e [(va, ft)])
    let mode : RMode := match e with | some x => if x.testBit 2 then ⟨x % 4, 0⟩ else rmOf j | none => rmOf j
    landed j 4 vd tt du (fun k => (cvtPlace ft tt part k).map fun p => cvtElem ft tt su du mode ((vsrc j e 0 va).elem ft p.1)) s
  | .vcvts e vd va vr tt ft => do
    need (tagsOk j e [(va, ft)])
    landed j 4 vd tt false (fun k => (cvtPlace ft tt (e.getD 0 % 8) k).map fun p =>
      cvtElem ft tt false false ⟨4, elem 16 (vsrc j e 1 vr).bits.toNat p.2⟩ ((vsrc j e 0 va).elem ft p.1)) s
  | .vquant e vd va ct part ft => do
    let t := j.regs.ct.get CTable.none ct
    need (tagsOk j e [(va, ft)] && !t.xs.isEmpty)
    landed j 6 vd 7 false (fun k => (cvtPlace ft 7 part k).map fun p =>
      compand t.xs t.ys (rmOf j) (decodeVal ft ((vsrc j e 0 va).elem ft p.1))) s
  | .vquantBlk e vd va md ft => do
    need (tagsOk j e [(va, ft)])
    let xs := ((vsrc j e 0 va).elems ft).map (decodeVal ft)
    let st := blockStarts (bthrOf j) xs 32 none
    let q := (blocksOf (st.zip xs)).flatMap (quantBlock (rmOf j))
    let s ← flagged j 6 (q.map fun r => r.1.2) s
    let pad := fun (l : List Nat) (z : Nat) => l ++ List.replicate (256 - q.length) z
    let s := j.emit 6 (.v vd (vreg 12 (pad (q.map fun r => r.1.1) 0))) s
    let s := j.emit 6 (.v (vd + 1) (vreg 12 (pad (q.map fun r => r.2) 127))) s
    some (j.emit 6 (.m md (BitVec.ofNat 256 (pack 1 (st.map (·.toNat))))) s)
  | .vdeq e vd va tt ct part => do
    let t := j.regs.ct.get CTable.none ct
    need (tagsOk j e [(va, 7)] && !t.xs.isEmpty)
    landed j 4 vd tt false (fun k =>
      some (roundVal tt (rmOf j) (decodeVal 10 (decompand t.xs t.ys ((vsrc j e 0 va).elem 7 (part * tagCount tt + k)))))) s
  | .vdeqBlk e vd va tt part => do
    need (va % 2 == 0 && tagsOk j e [(va, 12)] && (j.regs.rv (va + 1)).tag == 12)
    landed j 4 vd tt false (fun k =>
      let n := part * tagCount tt + k
      some (roundVal tt (rmOf j) (blockVal ((vsrc j e 0 va).elem 12 n) ((j.regs.rv (va + 1)).elem 12 n)))) s
  | _ => none

/-- Moves, broadcasts, inserts, tags (R210 to R213). -/
def moveEffect (j : Iss) (s : State) : Instr → Option State
  | .vsel e vd va vb mk ft u => do
    need (tagsOk j e [(va, ft), (vb, ft)])
    landed j 2 vd ft u (fun k =>
      some (if (j.regs.rm mk).getLsbD k then (vsrc j e 0 va).elem ft k else (vsrc j e 1 vb).elem ft k, 0)) s
  | .vmov e vd va mk ft u =>
    let a := vsrc j e 0 va
    if ft = 0 then
      (if a.tag = 0 ∨ a.tag ≥ 11 then some (j.emit 2 (.v vd a) s) else landed j 2 vd a.tag u (fun k => some (a.elem a.tag k, 0)) s)
    else do
      need (a.tag == ft)
      landed j 2 vd ft u (fun k => if (j.regs.rm mk).getLsbD k then some (a.elem ft k, 0) else none) s
  | .vbcast vd gn mk ft u => landed j 2 vd ft u (fun k =>
      if (j.regs.rm mk).getLsbD k then some ((j.regs.rg gn).toNat % 2 ^ tagWidth ft, 0) else none) s
  | .vbcastRow e vd va idx ft => do
    let nr := 2 ^ j.regs.vshape
    let nc := tagCount ft / nr
    need (tagsOk j e [(va, ft)] && decide (nr ≤ tagCount ft) && decide (idx < nr))
    landed j 2 vd ft false (fun k => some ((vsrc j e 0 va).elem ft (idx * nc + k % nc), 0)) s
  | .vbcastCol e vd va idx ft => do
    let nr := 2 ^ j.regs.vshape
    let nc := tagCount ft / nr
    need (tagsOk j e [(va, ft)] && decide (nr ≤ tagCount ft) && decide (idx < nc))
    landed j 2 vd ft false (fun k => some ((vsrc j e 0 va).elem ft (k / nc * nc + idx), 0)) s
  | .vins vd gn idx ft u => landed j 2 vd ft u (fun k => if k = idx then some ((j.regs.rg gn).toNat % 2 ^ tagWidth ft, 0) else none) s
  | .vext e d va idx ft u => do
    need (tagsOk j e [(va, ft)])
    let x := (vsrc j e 0 va).elem ft idx
    some (j.emit 2 (.g d (if intTag ft && !u then BitVec.ofInt 64 (sgn x (tagWidth ft)) else BitVec.ofNat 64 x)) s)
  | .vshape rc => some (j.emit 1 (.vshape rc) s)
  | .vtag e vd va tt =>
    let a := vsrc j e 0 va
    if tt = 0 then some (j.emit 2 (.v vd ⟨a.bits, 0⟩) s) else landed j 2 vd tt false (fun k => some (a.elem tt k, 0)) s
  | _ => none

/-- Reductions and shaped reads (R78, R214 to R216). -/
def shapedEffect (j : Iss) (s : State) : Instr → Option State
  | .vrsum e vd va mk ft u dir => go 0 e vd va mk ft u dir
  | .vrmax e vd va mk ft u dir => go 1 e vd va mk ft u dir
  | .vrmin e vd va mk ft u dir => go 2 e vd va mk ft u dir
  | .vxrd e vd va vi mk md u => do
    let a := vsrc j e 0 va
    let t := a.tag
    let n := tagCount t
    let nc := n / 2 ^ j.regs.vshape
    need (decide (1 ≤ t ∧ t ≤ 11) && (!u || intTag t) && (vsrc j e 1 vi).tag == intTagOf t && decide (2 ^ j.regs.vshape ≤ n))
    let ix := fun k => (vsrc j e 1 vi).elem t k
    let from_ := fun k => k / nc * nc + ix k
    let valid := fun k => (j.regs.rm mk).getLsbD k && decide (ix k < nc) && (j.regs.rm mk).getLsbD (from_ k)
    let s ← landed j 3 vd t u (fun k => some (if valid k then a.elem t (from_ k) else a.elem t k, 0)) s
    some (j.emit 3 (.m md (maskFrom n valid)) s)
  | .vrot e vd va k ft u => do
    let nr := 2 ^ j.regs.vshape
    let nc := tagCount ft / nr
    need (tagsOk j e [(va, ft)] && decide (nr ≤ tagCount ft))
    landed j 2 vd ft u (fun n => some ((vsrc j e 0 va).elem ft (n / nc * nc + (n % nc + k) % nc), 0)) s
  | _ => none
where
  /-- Each result element is the tree over the active elements of its row, or of its column with DIR. -/
  go (kind : Nat) (e : Option Nat) (vd va mk ft : Nat) (u dir : Bool) : Option State := do
    let nr := 2 ^ j.regs.vshape
    let nc := tagCount ft / nr
    need (tagsOk j e [(va, ft)] && decide (nr ≤ tagCount ft))
    let at_ := fun k => if (j.regs.rm mk).getLsbD k then some ((vsrc j e 0 va).elem ft k) else none
    let line := fun n => if dir then (List.range nr).map (fun r => at_ (r * nc + n)) else (List.range nc).map (fun c => at_ (n * nc + c))
    let root := fun k => settleNaN ft (tree (redStep kind ft u (rmOf j)) (Nat.log2 (if dir then nr else nc)) (line (if dir then k % nc else k / nc)))
    landed j 6 vd ft u (fun k =>
      some ((root k).1.getD (redEmpty kind ft u), if (j.regs.rm mk).getLsbD k then (root k).2 else 0)) s

/-- Streams and masks (R217 to R219). -/
def maskEffect (j : Iss) (s : State) : Instr → Option State
  | .vspush e sq va mk => do
    let a := vsrc j e 0 va
    let q := j.regs.sq sq
    let new := ((List.range 64).filter ((j.regs.rm mk).getLsbD ·)).map (a.elem a.tag)
    need ((a.tag == 3 || a.tag == 10) && (q.items.isEmpty || a.tag == q.tag) && decide (q.items.length + new.length ≤ 256))
    some (setStream j sq ⟨q.items ++ new, a.tag⟩ s)
  | .vspop sq vd md => pop sq vd md (if (j.regs.sq sq).items.length ≥ 64 then 64 else 0)
  | .vspopEnd sq vd md => pop sq vd md (Nat.min 64 (j.regs.sq sq).items.length)
  | .vsbal sqa sqb => do
    let qa := j.regs.sq sqa
    let qb := j.regs.sq sqb
    let (l, t, nl, nt) := if qa.items.length ≥ qb.items.length then (qa, qb, sqa, sqb) else (qb, qa, sqb, sqa)
    need (t.items.isEmpty || t.tag == l.tag)
    let keep := l.items.length - Nat.min 64 ((l.items.length - t.items.length) / 2)
    some (setStream j nt ⟨t.items ++ l.items.drop keep, if l.items.isEmpty then t.tag else l.tag⟩
      (setStream j nl { l with items := l.items.take keep } s))
  | .mand md ma mb => some (j.emit 2 (.m md (j.regs.rm ma &&& j.regs.rm mb)) s)
  | .mor md ma mb => some (j.emit 2 (.m md (j.regs.rm ma ||| j.regs.rm mb)) s)
  | .mxor md ma mb => some (j.emit 2 (.m md (j.regs.rm ma ^^^ j.regs.rm mb)) s)
  | .mnot md ma => some (j.emit 2 (.m md (~~~(j.regs.rm ma))) s)
  | .mpopc d ma => some (j.emit 2 (.g d (BitVec.ofNat 64 ((List.range 256).filter ((j.regs.rm ma).getLsbD ·)).length)) s)
  | .mfirst d ma => some (j.emit 2 (.g d (BitVec.ofNat 64 (((List.range 256).find? ((j.regs.rm ma).getLsbD ·)).getD 256))) s)
  | .mset md cnt => some (j.emit 2 (.m md (maskFrom 256 fun k => decide (k < cnt))) s)
  | .msetReg md gn => some (j.emit 2 (.m md (maskFrom 256 fun k => decide (k < (j.regs.rg gn).toNat))) s)
  | _ => none
where
  /-- The first `k` elements leave the queue; the others of the register are 0. -/
  pop (sq vd md k : Nat) : Option State := do
    let q := j.regs.sq sq
    let xs := q.items.take k
    let s ← landed j 3 vd q.tag false (fun n => some (xs.getD n 0, 0)) (setStream j sq { q with items := q.items.drop k } s)
    some (j.emit 3 (.m md (maskFrom k fun _ => true)) s)

/-! ### Matrix and modular results (R223 to R241) -/

/-- The matrix instructions; `MFILL` stands with the loads. -/
def matrixEffect (j : Iss) (s : State) : Instr → Option State
  | .mclaim kind first cnt => do
    need ((seqFrom first (cnt + 1)).all fun n => ((s.core j.core).claims.find (claimKey kind n)).all fun e => e.owner == j.ctx)
    some ((seqFrom first (cnt + 1)).foldl (claimOne j kind) s)
  | .mrel kind first cnt =>
    if j.inSeg then
      let mark := fun (e : Nat × Claim) =>
        if e.2.owner = j.ctx ∧ claimKey kind first ≤ e.1 ∧ e.1 ≤ claimKey kind (first + cnt) then (e.1, { e.2 with mark := true }) else e
      some (s.modCore j.core fun k => { k with claims := k.claims.map mark })
    else some (j.emit 1 (.release kind first (cnt + 1)) s)
  | .mfmt fa fb ca cb ct ua ub => some (j.emit 1 (.arr ⟨fa, fb, ca, cb, ct, ua, ub⟩) s)
  | .mlatch lt os blk => do
    need (claimed s j.core j.ctx 2 lt && claimed s j.core j.ctx 0 os && (!blk || claimed s j.core j.ctx 0 (os + 1)))
    let t := latchPlane j lt 0 os s
    some (if blk then latchPlane j lt 1 (os + 1) t else t)
  | .mpush e lt row va part blk => do
    need (claimed s j.core j.ctx 2 lt && source e va blk)
    let r := (row + j.k) % 64
    let t := j.emit 2 (.lt (128 * lt + r) (halfOf (vsrc j e 0 va) part)) s
    some (if blk then j.emit 2 (.lt (128 * lt + 64 + r) (halfOf (j.regs.rv (va + 1)) part)) t else t)
  | .mshift e os row va part blk => do
    need (claimed s j.core j.ctx 0 os && (!blk || claimed s j.core j.ctx 0 (os + 1)) && source e va blk)
    let r := (row + j.k) % 64
    let t ← reserve s j.core j.ctx (osLines os r ++ if blk then osLines (os + 1) r else [])
    let t := j.emit 2 (.os (64 * os + r) (halfOf (vsrc j e 0 va) part)) t
    some (if blk then j.emit 2 (.os (64 * (os + 1) + r) (halfOf (j.regs.rv (va + 1)) part)) t else t)
  | .macc e acc row os lt za => do
    let f := j.regs.arr
    let table := fun (c : Bool) => if c then (decodeTable j true f.ct).toOption else some none
    need (claimed s j.core j.ctx 1 acc && claimed s j.core j.ctx 0 os && claimed s j.core j.ctx 2 lt &&
      (f.fa != 12 || (os % 2 == 0 && claimed s j.core j.ctx 0 (os + 1))))
    let ta ← table f.ca
    let tb ← table f.cb
    let r := (row + j.k) % 64
    let sr := (e.getD row + j.k) % 64
    let rows := fun plane => (List.range 64).map (ltRow s j.core lt plane)
    let out := beat f ta tb (osRow s j.core os sr) (osRow s j.core (os + 1) sr) (rows 0) (rows 1) (if za then 0 else accRow s j.core acc r)
    let t ← reserve s j.core j.ctx (accLines acc r)
    let fl := orAll (out.map (·.2))
    let t := if fl = 0 then t else j.emit 6 (.fmtOr fl) t
    some (j.emit 6 (.acc (64 * acc + r) (BitVec.ofNat 2048 (pack 32 (out.map (·.1))))) t)
  | .mdrain acc row vd tt part clr => do
    need (claimed s j.core j.ctx 1 acc)
    let r := (row + j.k) % 64
    let x := accRow s j.core acc r
    let f := fun k => if 64 * part ≤ k ∧ k < 64 * part + 64 then some (drainElem tt (rmOf j) (elem 32 x (k - 64 * part))) else none
    let fl := orAll (flagsOf tt f)
    let t := if fl = 0 then s else j.emit 8 (.fmtOr fl) s
    let t ← (emitV j 8 vd tt false ((List.range (tagCount tt)).map fun k => match f k with
      | some q => (q.1, true)
      | none => ((j.regs.rv vd).elem tt k, false)) t).toOption
    if clr then do
      let t ← reserve t j.core j.ctx (accLines acc r)
      some (j.emit 1 (.acc (64 * acc + r) 0) t)
    else some t
  | .mzero acc => do
    need (claimed s j.core j.ctx 1 acc)
    let t ← reserve s j.core j.ctx ((unitLines 1 acc).map fun u => (1, u))
    some (j.emit 1 (.zero 1 acc true) t)
  | _ => none
where
  /-- A source of `MPUSH` and `MSHIFT`: an 8- or 16-bit format of the array, or the pair of a block-scaled operand. -/
  source (e : Option Nat) (va : Nat) (blk : Bool) : Bool :=
    let t := (vsrc j e 0 va).tag
    if blk then va % 2 == 0 && t == 12 && (j.regs.rv (va + 1)).tag == 12 else t == 0 || t == 1 || decide (5 ≤ t ∧ t ≤ 9)

/-- The modular instructions and the butterfly network (R234 to R241). -/
def modularEffect (j : Iss) (s : State) : Instr → Option State
  | .qldm e q va => do
    need (res (vsrc j e 0 va))
    some (j.emit 2 (.qm q (vsrc j e 0 va).bits) s)
  | .qldk e q va => do
    need (res (vsrc j e 0 va))
    some (j.emit 2 (.qk q (vsrc j e 0 va).bits) s)
  | .qadd e vd va vb mk q => two 2 e vd va vb mk q fun n a b _ => (a + b) % n
  | .qsub e vd va vb mk q => two 2 e vd va vb mk q fun n a b _ => (a + (n - b)) % n
  | .qmul e vd va vb mk q => two 6 e vd va vb mk q fun n a b _ => a * b % n
  | .qmac e vd va vb mk q => do
    need (res (j.regs.rv vd))
    two 6 e vd va vb mk q fun n a b c => (a * b + c) % n
  | .qred e vd va mk q => do
    need (res (vsrc j e 0 va) && valid mk q)
    some (j.emit 6 (.v vd (vreg 11 (lanes64 j vd mk fun k => el (vsrc j e 0 va) q k))) s)
  | .qbfly e vx vy vw mk q => fly e vx vy vw mk q fun n a b w => ((a + b * w) % n, (a + (n - b * w % n)) % n)
  | .qibfly e vx vy vw mk q => fly e vx vy vw mk q fun n a b w => ((a + b) % n, (a + (n - b)) * w % n)
  | .qcvtQ64I64 e vd va mk q => do
    need ((vsrc j e 0 va).tag == 4 && valid mk q)
    some (j.emit 4 (.v vd (vreg 11 (lanes64 j vd mk fun k => (sgn ((vsrc j e 0 va).elem 4 k) 64 % (modulus j q k : Int)).toNat))) s)
  | .qcvtI64Q64 e vd va mk q => do
    let a := vsrc j e 0 va
    need ((a.tag == 0 || a.tag == 11) && valid mk q)
    some (j.emit 4 (.v vd (vreg 4 (lanes64 j vd mk fun k =>
      let r := el a q k
      wrapI (if r ≤ modulus j q k / 2 then (r : Int) else (r : Int) - modulus j q k) 64))) s)
  | .bperm e vd va mk stg w => net 2 vd (vsrc j e 0 va) w (fun k a =>
      let p := k ^^^ 2 ^ stg
      elem (unitWidth w) a (if (j.regs.rm mk).getLsbD (Nat.min k p) then p else k)) fun _ => true
  | .bpermi e vd va stg w => net 2 vd (vsrc j e 0 va) w (fun k a => elem (unitWidth w) a (k ^^^ 2 ^ stg)) fun _ => true
  | .vxperm e vd va vi mk w => do
    let a := vsrc j e 0 va
    let ix := vsrc j e 1 vi
    need (ix.tag == if w then 4 else 3)
    net 8 vd a w (fun k x =>
      if (j.regs.rm mk).getLsbD k then elem (unitWidth w) x (elem (unitWidth w) ix.bits.toNat k % (2048 / unitWidth w))
      else elem (unitWidth w) (j.regs.rv vd).bits.toNat k) fun k =>
        (seqFrom (k * tagWidth a.tag / unitWidth w) ((tagWidth a.tag + unitWidth w - 1) / unitWidth w)).all ((j.regs.rm mk).getLsbD ·)
  | _ => none
where
  res (v : VReg) : Bool := v.tag == 0 || v.tag == 4 || v.tag == 11
  /-- Every active lane's modulus is valid with its constant (R234). -/
  valid (mk q : Nat) : Bool := (List.range 32).all fun k => !(j.regs.rm mk).getLsbD k || validMod (modulus j q k) (elem 64 (j.regs.qk.get 0 q).toNat k)
  el (v : VReg) (q k : Nat) : Nat := elem 64 v.bits.toNat k % modulus j q k
  two (lat : Nat) (e : Option Nat) (vd va vb mk q : Nat) (f : Nat → Nat → Nat → Nat → Nat) : Option State := do
    need (res (vsrc j e 0 va) && res (vsrc j e 1 vb) && valid mk q)
    some (j.emit lat (.v vd (vreg 11 (lanes64 j vd mk fun k =>
      f (modulus j q k) (el (vsrc j e 0 va) q k) (el (vsrc j e 1 vb) q k) (el (j.regs.rv vd) q k)))) s)
  fly (e : Option Nat) (vx vy vw mk q : Nat) (f : Nat → Nat → Nat → Nat → Nat × Nat) : Option State := do
    let a := vsrc j e 0 vx
    let b := vsrc j e 1 vy
    let w := vsrc j e 2 vw
    need (res a && res b && res w && valid mk q)
    let r := fun k => f (modulus j q k) (el a q k) (el b q k) (el w q k)
    some (j.emit 7 (.v vy (vreg 11 (lanes64 j vy mk fun k => (r k).2))) (j.emit 7 (.v vx (vreg 11 (lanes64 j vx mk fun k => (r k).1))) s))
  /-- A result of the network: unit `k` from the source's bits, with the source's tag, checked where `chk` says. -/
  net (lat vd : Nat) (a : VReg) (w : Bool) (f : Nat → Nat → Nat) (chk : Nat → Bool) : Option State :=
    (emitBits j lat vd ⟨BitVec.ofNat 2048 (pack (unitWidth w) ((List.range (2048 / unitWidth w)).map fun k => f k a.bits.toNat)), a.tag⟩
      chk s).toOption

/-! ### The C slot (R168 to R194) -/

/-- The completion word that a `g` register gives: none where it is malformed, or its stamp leads nowhere (R80, R168). -/
def cwordAt (j : Iss) (s : State) (c : Nat) : Option CWord := do
  let cw := cword j (j.regs.rg c)
  need (!cwordBad j (j.regs.rg c) 0 && !(cw.st && j.hole s j.regs.saddr))
  some cw
/-- A copy starts: its plan meets no fault, the queue has room, nothing it reads or claims is awaited. -/
def copyEffect (plan : Iss → State → Except Stop Plan) (j : Iss) (s : State) : Option State := do
  need (decide (seqQueued s j.core < 16))
  let p ← (plan j s).toOption
  need (readWait j s (planGas j p) == .ok && (!p.sched j || skidWait j s p.claim == .ok))
  (pieceChecks j s p.ps).toOption
  need ((p.ps.isEmpty || p.sched j) && !p.cw.signals || j.mayLeave)
  let (t, cw) ← (j.cwRelease p.cw s).toOption
  some (copyStart j t (s.core j.core).j { p with cw := cw })
def copyRowEffect (j : Iss) (s : State) : Instr → Option State
  | .seqlv e lvl fld gn => some (j.emit 1 (.seqLvl lvl fld (src2 j.regs e gn).toNat) s)
  | .seqgo d gs c => copyEffect (seqgoPlan d gs c) j s
  | .tmov d gs c sz => copyEffect (tmovPlan d gs c sz) j s
  | .mcast e d gs c sz => do
    let cw ← cwordAt j s c
    let n := 2 ^ (6 + sz)
    let dst := (j.regs.rg d).toNat
    let src := (j.regs.rg gs).toNat
    let cores := (List.range 8).filterMap fun b => if e.testBit b then some (8 * cluOf j.core + b) else none
    need (decide (seqQueued s j.core < 16) && cw.tset == 0 && dst % 64 == 0 && src % 64 == 0 &&
      j.inOwn dst n && !(j.inOwn src 1 || j.inOwn (src + n - 1) 1) && (rangeHole j s src n).isNone &&
      !cores.isEmpty && cores.all (runsTask s j.core j.me.info.task) && (j.gas true n dst).isSome &&
      ((cores == [j.core] && !cw.signals) || j.mayLeave))
    let was := (s.core j.core).j
    let (t, cw) ← (j.cwRelease cw s).toOption
    let t := t.charge j.core j.ctx (copyCharge (n * cores.length))
    let after := fenced t j.core j.ctx true ++ nmFenced t j.core j.ctx ((List.range (n / 64)).map fun b => src + 64 * b)
    some (t.post { mkOp t j.core j.ctx j.at_ after (.mcast src dst n cores none cw Slow.none) with j := was })
  | _ => none

/-- The source bytes that a C-slot instruction reads at its issue (R27, R87, R94). -/
def sourceRead (j : Iss) (s : State) (align n va : Nat) : Option (State × List Byte) := do
  need (sourceWait j s n va == .ok)
  (readSource j s align n va).toOption
/-- Beats at the head of a channel's queue: enough of them, with the awaited timestamp, none poisoned. -/
def headOk (j : Iss) (s : State) (ch n want : Nat) : Option (List Beat) := do
  let q := (s.ctx j.core j.ctx).queues.get [] ch
  need (j.me.recvs.get false ch && (!(s.ctx j.core j.ctx).recvs.get false ch || decide (n ≤ q.length)) &&
    (q.take n).all fun b => b.ts == want && !b.poison)
  some (q.take n)
def channelEffect (j : Iss) (s : State) : Instr → Option State
  | .send ch vs nb => do
    need (creditWait j s ch (nb + 1) == .ok && j.mayLeave)
    let bind ← j.me.sends.find ch
    some (sendBeats j s ch bind (beatData (nb + 1) (j.regs.rv vs).bits.toNat))
  | .sendMem ch a nb => do
    need (creditWait j s ch (nb + 1) == .ok && j.mayLeave)
    let bind ← j.me.sends.find ch
    let (t, bytes) ← sourceRead j s 64 (64 * (nb + 1)) (j.regs.rg a).toNat
    some (sendBeats j t ch bind (beatData (nb + 1) (ofBytes bytes)))
  | .recv e ch vd nb tag gn => do
    let bs ← headOk j s ch (nb + 1) (j.gz e gn)
    some (j.emit 1 (.v vd ⟨BitVec.ofNat 2048 (pack 512 (bs.map fun b => b.data.toNat)), tag⟩) (takeBeats j s ch bs))
  | .recvMem e ch a nb gn => do
    let va := (j.regs.rg a).toNat
    need (va % 64 == 0 && j.inOwn va (64 * (nb + 1)))
    let gas ← j.gas true (64 * (nb + 1)) va
    need (writeWait j s 1 gas == .ok)
    let bs ← headOk j s ch (nb + 1) (j.gz e gn)
    let bytes := gas.zip (bs.flatMap fun b => toBytes 64 b.data.toNat)
    let t ← reserve s j.core j.ctx ((unitsOf bytes).map fun u => (0, u))
    some (j.emit 1 (.cstore bytes none) (takeBeats j t ch bs))
  | _ => none

/-- The return bytes of an atomic, in the linear view, or of a shelf request, in the swizzled one (R86); none asked for with register 0. -/
def returnBytes (j : Iss) (swz : Bool) (n rt : Nat) : Option (List Nat) :=
  let va := (j.regs.rg rt).toNat
  if rt = 0 then some [] else do
    need (va % n == 0 && j.inOwn va n)
    j.gas swz n va
def atomEffect (j : Iss) (s : State) : Instr → Option State
  | .atom op w a b rt => do
    let n := atomBytes w
    let va := (j.regs.rg a).toNat
    need (va % n == 0)
    let ret ← returnBytes j false n rt
    if j.inOwn va n then
      let gas := (j.gas false n va).getD []
      need (writeWait j s 2 gas == .ok)
      let t ← reserve s j.core j.ctx ((unitsOf ((gas ++ ret).map fun g => (g, 0))).map fun u => (0, u))
      some (j.emit 2 (.atom (gas.headD 0) op w (atomOperand j w b) (atomOperand j w (b + 1)) ret (t.ctx j.core j.ctx).lastFence) t)
    else
      let cls := match xlate s j.core j.me.level .atomic va with
        | .ok x => x.cls
        | .error _ => if inWindow va ∨ va < shelfBase then 3 else 5
      need (!j.hole s va && returnWait j s rt == .ok && cls != 5 && cls != 6 && (cls != 7 || bit s.fabric.hostAtomics (3 * op + w)) && j.mayLeave)
      some (postAtomic j s false cls op w a b ret)
  | .atomr op w a b rt => do
    let n := atomBytes w
    let va := (j.regs.rg a).toNat
    need (va % n == 0 && returnWait j s rt == .ok && !inWindow va)
    let ret ← returnBytes j false n rt
    let place := match xlate s j.core j.me.level .atomic va with
      | .ok x => (x.cls, some (x.ga / 2 ^ 48 - 1))
      | .error _ => (if va ≥ shelfBase then 5 else 6, none)
    need ((place.1 == 5 || place.1 == 6) && ((place.2.map fun d => farPerforms s d op w).getD true) && j.mayLeave)
    some (postAtomic j (s.charge j.core j.ctx (fabricCharge 64)) true place.1 op w a b ret)
  | .shalloc gs rt mir => request rt (.shalloc (j.regs.rg gs).toNat mir)
  | .shfree a rt => request rt (.shfree (j.regs.rg a).toNat)
  | _ => none
where
  request (rt : Nat) (k : List Nat → OpK) : Option State := do
    need (rt != 0 && returnWait j s rt == .ok && j.mayLeave)
    let ret ← returnBytes j true 8 rt
    let t := addXfer j s (schedLat j.me 5) 64 [⟨ret.headD 0 / 64, 1, ret, [], false⟩]
    some (t.post (mkOp t j.core j.ctx j.at_ (fenced t j.core j.ctx true) (k ret)))

/-- Descriptors, bounds, companding tables, prefetch (R179, R191 to R194). -/
def descEffect (j : Iss) (s : State) : Instr → Option State
  | .nmcmd a c => do
    need (decide ((s.ctx j.core j.ctx).nmOut < 8) && j.mayLeave)
    let cw ← cwordAt j s c
    let (s, b) ← sourceRead j s 64 64 (j.regs.rg a).toNat
    need (!nmBad b)
    let d := nmDesc b
    need (d.stat == 0 || (rangeCheck j s d.stat 8).toBool)
    let was := (s.core j.core).j
    let (s, cw) ← (j.cwRelease cw s).toOption
    let after := fenced s j.core j.ctx true ++ nmFenced s j.core j.ctx [d.dst]
    let t := s.post { mkOp s j.core j.ctx j.at_ after (.nmcmd d cw (nmStack s j.core j.me.level d) none) with j := was }
    let t := t.modCtx j.core j.ctx fun k => { k with nmOut := k.nmOut + 1, nmUnfenced := k.nmUnfenced ++ [s.nextId] }
    some (t.charge j.core j.ctx (copyCharge d.dstBytes))
  | .bndset bd lo hi mode fk => do
    need (!boundBad (j.regs.rg lo) (j.regs.rg hi) fk)
    some (j.emit 2 (.bd bd ⟨j.regs.rg lo, j.regs.rg hi, fk, mode⟩) s)
  | .ctset ct a => do
    let (t, b) ← sourceRead j s 8 136 (j.regs.rg a).toNat
    let word := fun n => ofBytes ((b.drop (4 * n)).take 4)
    let xs := (List.range 17).map fun n => word (2 * n)
    let ys := (List.range 17).map fun n => word (2 * n + 1)
    need (curveOk xs && curveOk ys)
    some (j.emit 12 (.ct ct ⟨xs, ys⟩) t)
  | .coll a c => do
    need (j.mayLeave && collWait a j s == .ok)
    let cw ← cwordAt j s c
    let (s, b) ← (readSource j s 64 64 (j.regs.rg a).toNat).toOption
    need (!collBad b)
    let d := collDesc b
    let own := decide (d.srcBytes ≠ 0) && j.inOwn d.src d.srcBytes
    need ((rangeCheck j s d.src d.srcBytes).toBool && (rangeCheck j s d.dst d.dstBytes).toBool)
    let gas ← if own then (sourceGas j s d.srcBytes d.src).toOption else some []
    let q := if gas.isEmpty || gas.any (fun ga => s.poisoned (ga / 64)) then (s, none)
      else let r := sourceBytes j s gas; (r.1, some r.2)
    let was := (q.1.core j.core).j
    let (s, cw) ← (j.cwRelease cw q.1).toOption
    let after := fenced s j.core j.ctx true ++ nmFenced s j.core j.ctx [d.src, d.dst]
    let t := s.charge j.core j.ctx (copyCharge d.dstBytes)
    some (t.post { mkOp t j.core j.ctx j.at_ after (.coll d cw Slow.none q.2) with j := was })
  | .pref a sz =>
    let va := (j.regs.rg a).toNat % 2 ^ 57
    some (postWalks j (va / 2 ^ 16 * 2 ^ 16) s ((va % 2 ^ 16 + 2 ^ (12 + sz) + 2 ^ 16 - 1) / 2 ^ 16))
  | _ => none

/-! ### Privileged effects (R257 to R259, R269, R274, R289, R308) -/

/-- The privileged instructions but `ERET`, which stands with the transfers. -/
def privEffect (j : Iss) (s : State) : Instr → Option State
  | .srdp d sr idx => do
    need (!(sr == 0x4E && !targetIn s j) && !((sr == 0x4F || sr == 0x50 || sr == 0x51) && !targetOpen s j))
    if sr = 0x01 then some (j.emit 1 (.g d (BitVec.ofNat 64 s.now)) s.sampled)
    else some (j.emit 1 (.g d (BitVec.ofNat 64 (srdpValue j s sr idx))) s)
  | .swrp a sr idx => do
    let n := (j.regs.rg a).toNat
    let q := s.part (s.partOf j.core)
    if sr = 0x05 then (do
      need (n % 8 < 4)
      some (j.emit 1 (.fmtSet n) s))
    else if sr = 0x0C then some (j.emit 1 (.lc idx (n % 2 ^ 32)) s)
    else do
      need (!(sr == 0x46 && tqctlBad q n) && !(sr == 0x48 && tqconsBad q n) &&
        !(sr == 0x4D && (n % 16 == 0 || decide (n % 16 > 4) || cmdBad s j (n % 16))) &&
        !((sr == 0x4F || sr == 0x50 || sr == 0x51) && !targetOpen s j))
      some (j.emit 1 (.spr sr idx (if sr = 0x4D then n % 16 else n) j.target.1 j.target.2) s)
  | .tlbinvPage a c => inv 0 a c
  | .tlbinvAll c => inv 1 0 c
  | .tlbinvWb a c => inv 2 a c
  | .ctxsvCtx t a c => image true false t a c
  | .ctxsvCore t a c => image true true t a c
  | .ctxldCtx t a c => image false false t a c
  | .ctxldCore t a c => image false true t a c
  | .trcctlOff => some (traced 0 0)
  | .trcctlRec a => some (traced 1 (j.regs.rg a).toNat)
  | .trcctlBind a => some (traced 2 (j.regs.rg a).toNat)
  | .idle => some (s.modCtx j.core j.ctx fun k => { k with dep := some (.idle (s.part (s.partOf j.core)).tqprod k.obs) })
  | _ => none
where
  /-- A `TRCCTL` after those of the partition that are pending. -/
  traced (mode va : Nat) : State :=
    let p := s.partOf j.core
    runTraces p ((s.part p).tracePend ++ [⟨mode, va, j.core, j.ctx, j.me.info.task, j.me.level, j.at_⟩]) s
  inv (kind a c : Nat) : Option State := do
    need j.mayLeave
    let cw ← cwordAt j s c
    let va := (j.regs.rg a).toNat % 2 ^ 57
    let n := if kind = 2 then ((wbLeaf s (s.partOf j.core) va).map fun t => 2 ^ pageBits t.1).getD 0 else 0
    let (t, cw) ← (j.cwRelease cw s).toOption
    let t := t.charge j.core j.ctx (copyCharge n)
    some (t.post { mkOp t j.core j.ctx j.at_ (allBefore t j.core j.ctx) (.tlbinv kind va cw) with j := (s.core j.core).j })
  /-- A save or a load: of a context or of a core, whose contexts of this partition are busy from then on, and stopped by a save. -/
  image (save core : Bool) (t a c : Nat) : Option State := do
    let tgt := selTarget (j.regs.rg t).toNat
    let va := (j.regs.rg a).toNat
    let xs := imgContexts core tgt.2
    let cw ← cwordAt j s c
    need (j.mayLeave && va % 4096 == 0 && !inWindow va &&
      !(xs.any fun x => (tgt.1 == j.core && x == j.ctx) || (s.ctx tgt.1 x).busy))
    let inside := (s.part (s.partOf j.core)).cfg.cores.contains tgt.1
    let (u, cw) ← (j.cwRelease cw s).toOption
    let was := [0, 1, 2, 3].map fun x => statusCode (u.ctx tgt.1 x)
    let u := u.post { mkOp u j.core j.ctx j.at_ (imgAfter core j u va)
      (if save then .save core tgt.1 tgt.2 va was cw else .load core tgt.1 tgt.2 va cw) with j := (s.core j.core).j }
    let u := if inside && save then xs.foldl (fun s x => suspendCmd s tgt.1 x) u else u
    some (if inside then xs.foldl (setBusy true tgt.1) u else u)

/-- What a slot syllable's own effect leaves at its issue, whatever its family; scalar instructions by `scalarRes`, `BRK` stands
alone. -/
def syllableEffect (j : Iss) (s : State) (i : Instr) : Option State :=
  (scalarRes j.regs i).map (j.emitAny · s) <|> specialEffect j s i <|> addressEffect j s i <|> transferEffect j s i <|>
  controlEffect j s i <|> syncEffect j s i <|> loadEffect j s i <|> storeEffect j s i <|> ((intElem i).bind fun q => q.effect j s) <|>
  ((fpElem i).bind fun q => q.effect j s) <|> logicEffect j s i <|> compareEffect j s i <|> convertEffect j s i <|> moveEffect j s i <|>
  shapedEffect j s i <|> maskEffect j s i <|> matrixEffect j s i <|> modularEffect j s i <|> copyRowEffect j s i <|>
  channelEffect j s i <|> atomEffect j s i <|> descEffect j s i <|> privEffect j s i

end Sys2Proof.Machine
end

