-- ==== Sys2Proof/Certificates/Slice0/Obligations.lean ====
section
/-!
DEFINITION. The statements about the model. A statement about one instruction is about its issue alone in a bundle; `issOf s x i` is
that issue, `issued s x i t` the state after the bundle commits when its effect at issue left `t`.
-/

open Sys2Proof Sys2Proof.Machine

/-! ### Reset and memory -/

/-- After module power-on `PTIME` reads 0, every context is empty with its gear request at spring, every core's cap is spring+,
no error, replay or link failure has been counted, no partition exists, and memory lists nothing, in its canonical form (R25, R140,
R316, R328).  That a byte which nothing has written reads 0 is the model's choice (log entry 2). -/
def Obligations.ResetState : Prop :=
  State.reset.ptime = 0 ∧ (∀ c x, (State.reset.ctx c x).status = .empty ∧ (State.reset.ctx c x).gearReq = 2) ∧
  (∀ c, (State.reset.core c).capg = 3 ∧ (State.reset.core c).curOf 0 = 2 ∧ (State.reset.core c).ras = []) ∧
  (∀ p, (State.reset.port p).rtry = 0 ∧ (State.reset.port p).fails = 0) ∧ (∀ p, (State.reset.part p).live = false) ∧
  MemOk State.reset ∧ ∀ ga, State.reset.byte ga = 0

/-- Every step keeps memory in its canonical form, and with it the memory that a checkpoint or an emergency save holds. -/
def Obligations.MemoryCanonicalKept : Prop := ∀ s s', MemOk s → step s = .next s' → MemOk s'

/-- A byte reads as the last write left it; a poisoned line written in part keeps all its bytes (R3, R83, R325). -/
def Obligations.StoreThenRead : Prop :=
  ∀ s bytes rel ga, (s.store bytes rel).byte ga =
    if (partLines s bytes).contains (ga / 64) then s.byte ga else lastByte bytes (s.byte ga) ga

/-! ### Encoding -/

/-- Words written out from the spec's layouts stand for the instructions they encode (R113, R133, R143, R159, R199, R231). -/
def Obligations.DecodeWords : Prop :=
  decodeSyl 1 0x000C2100 none = .ok (.add none 3 2 4 0 false) ∧
  decodeSyl 2 0x90000000 (some 0) = .error .reserved ∧
  decodeSyl 0 0x01000003 none = .ok (.br 3) ∧
  decodeSyl 0 0x60000000 none = .ok .eret ∧
  decodeSyl 0 0x7F000000 none = .error .unassigned ∧
  decodeSyl 4 0x000CB005 none = .ok (.ld none 3 2 3 false 5) ∧
  decodeSyl 5 0x00088686 none = .ok (.vadd none 1 2 3 4 3 false) ∧
  decodeSyl 8 0x08140000 none = .ok (.mzero 5) ∧
  decodeSyl 9 0x02088688 none = .ok (.qadd none 1 2 3 4 1) ∧
  decodeSyl 10 0x010420C0 none = .ok (.seqgo 1 2 3) ∧
  decodeSyl 10 0x07000000 none = .ok .nmfence

/-- Decoding the words of a well-formed syllable in a slot of its map gives the instruction back (R113, R114, R117). -/
def Obligations.RoundTrip : Prop :=
  ∀ (i : Instr) (slot w : Nat) (e : Option Nat), i.wf = true → i.encode = some (w, e) → mapOfSlot slot = i.map →
    (i.v1Only = true → slot ≠ 5) → decodeSyl slot w e = .ok i

/-- Decoding accepts no word but the encoder's, and gives well-formed instructions of the slot's map only (R113, R117, R118). -/
def Obligations.DecodeSound : Prop :=
  ∀ (slot w : Nat) (e : Option Nat) (i : Instr), decodeSyl slot w e = .ok i →
    i.encode = some (w, e) ∧ i.wf = true ∧ mapOfSlot slot = i.map ∧ (i.v1Only = true → slot ≠ 5)

/-- Decoding the words of a well-formed bundle gives it back, with what follows it (R106 to R110). -/
def Obligations.RoundTripBundle : Prop :=
  ∀ (i : Instr) (ws rest : List Nat), i.wf = true → encodeBundle i = some ws → decodeBundle (ws ++ rest) = .ok (i, rest)

/-! ### The step -/

/-- The core whose turn it is runs the bundle that its text holds at its program counter; a bundle of one syllable runs as that
syllable's instruction; a pinned one is not fetched again (R121).  Whose turn it is (log entry 1), that a bundle's fetch counts as the
bundle starts (log entry 72) and what the loop buffer keeps (log entry 83) are the model's choices. -/
def Obligations.StepRunsFetched : Prop :=
  ∀ (s : State) (c x : Nat) (i : Instr), s.inputs = [] → s.powered = true → dueFirst s = none → nextCore s = some c →
    let u := { s with cur := c }
    let held := pinned u c x (u.ctx c x).regs.pc
    coreFirst u c = none → issuer u c = some x → held = true ∨ textPaused u c x = false →
    fetchBundle u c x (u.ctx c x).regs.pc = .ok i →
    step s = exec ((soleSyllable i).getD i) (noteFetch u c x i) ∧ (held = true → noteFetch u c x i = u)

/-- No instruction and no event is refused or stops the machine: each gives a next state; a step stops only where the board has removed
power (R336). -/
def Obligations.GoesOnUntilPowerRemoval : Prop :=
  (∀ (i : Instr) (s : State), ∃ t, exec i s = .next t) ∧
  ∀ s, (s.powered = true → ∃ t, step s = .next t) ∧ (∀ f, step s = .fault f → f = .poweredOff ∧ s.powered = false) ∧
    ∀ r, step s ≠ .refused r

/-! ### Traps -/

/-- A privileged instruction at level U takes the privilege fault at its slot, and its bundle commits nothing (R254, R255); a `LAUNCH`
that the partition keeps to its supervisor is one (R157).  It comes before the illegal-instruction traps of its slot, those of its
operands, its hold bits and its capability (the order is the model's reading, log entry 12). -/
def Obligations.PrivilegeTrap : Prop :=
  (∀ (s : State) (x : Nat) (i : Instr), issuer s s.cur = some x → bkptOf (ctxOf s x) (sole s x i) = none → ControlOk s x i →
    barred s i = true → (ctxOf s x).level = 0 →
    exec i s = .next (takeCause s s.cur x 0 { code := 0x04, slot := i.slot } (whereOf s x i.slot))) ∧
  (∀ (s : State) (x w : Nat) (e : Option Nat) (err : DecodeErr), issuer s s.cur = some x → 0x60 ≤ bitsAt w 24 7 → bitsAt w 24 7 ≤ 0x67 →
    decodeSyl 0 w e = .error err → breakCause (ctxOf s x) (sylsOf (regsOf s x) false [(0, w, e)] none) = none →
    exec (.bundleIssue 0 false false false [(0, w, e)]) s = .next (takeCause s s.cur x 0
      { code := if (ctxOf s x).level = 0 then 0x04 else 0x03, slot := 0 } (whereOf s x 0)))

/-- An instruction whose capability is not in force takes the illegal-instruction trap at its slot (R8, R117, R118). -/
def Obligations.FeatureTrap : Prop :=
  ∀ (s : State) (x b : Nat) (i : Instr) (o : Op), issuer s s.cur = some x → bkptOf (ctxOf s x) (sole s x i) = none →
    opOf i = some o → o.brk = none → ControlOk s x i → (barred s i = true → (ctxOf s x).level ≠ 0) → needsFeat i.slot o = some b →
    s.hasFeat (s.partOf s.cur) b = false →
    exec i s = .next (takeCause s s.cur x 0 { code := 0x03, slot := i.slot } (whereOf s x i.slot))

/-- A control instruction in a delay bundle or in a loop body's last two bundles is an illegal bundle, in no slot (R120). -/
def Obligations.ControlPlaceTrap : Prop :=
  ∀ (s : State) (x : Nat) (i : Instr), issuer s s.cur = some x → bkptOf (ctxOf s x) (sole s x i) = none → control i = true →
    ((regsOf s x).pend ≠ none ∨ lastTwo s s.cur x ((regsOf s x).pc + (soleHead i).len) = true) →
    exec i s = .next (takeCause s s.cur x 0 { code := 0x02 } (whereOf s x 15))

/-- A trap that an instruction's effect raises, or that is judged with its dependence, is precise: it is taken from the state before
the bundle, with the context's registers and memory as they were (R31, R118, R260). -/
def Obligations.SyllableTrapPrecise : Prop :=
  ∀ (s : State) (x : Nat) (i : Instr) (o : Op) (q : Cause), Ready s x i → opOf i = some o → o.brk = none →
    (o.wait (issOf s x i) s = .trap q ∨ (o.wait (issOf s x i) s = .ok ∧ o.run (issOf s x i) s = .error (.trap q))) → q.code ≠ 0x36 →
    exec i s = .next (takeCause s s.cur x 0 q (whereOf s x q.slot))

/-- An unmet dependence freezes the context before its bundle: nothing issues, every register stays, it is active no longer (R31,
R32); where another context becomes active the switch counts as a `VJOIN` of it (R87). -/
def Obligations.FreezeOnDependence : Prop :=
  ∀ (s : State) (x : Nat) (i : Instr) (o : Op) (d : Dep), Ready s x i → opOf i = some o → o.brk = none →
    o.wait (issOf s x i) s = .dep d →
    ∃ t, exec i s = .next t ∧ (ctxOf t x).status = .frozen ∧ (ctxOf t x).dep = some d ∧ (∀ ga, t.byte ga = s.byte ga) ∧
      (t.core s.cur).active ≠ some x ∧
      (regsOf t x = regsOf s x ∨ regsOf t x = { regsOf s x with vjoins := (regsOf s x).ltime :: (regsOf s x).vjoins })

/-- A breakpoint trap of `BRK` comes before its bundle commits anything and carries CODE; at the point where a STEP has resumed the
context the bundle commits (R123, R154). -/
def Obligations.Breakpoint : Prop :=
  ∀ (s : State) (x code : Nat), MayIssue s x (.brk code) → ControlOk s x (.brk code) →
    exec (.brk code) s = .next (
      if (ctxOf s x).stepping then issued s x (.brk code) s
      else takeCause s s.cur x 0 { code := 0x05, slot := 0, info0 := 4, tcode := code } (whereOf s x 0))

/-- A cause of a context at level U suspends it with the cause's code, its registers as they stood; with room in the partition's trap
queue, no bound event waiting before it and memory that takes the write, the record's bytes stand at the queue's next entry, and the queue
has one record more (R255, R262, R264). -/
def Obligations.UserCauseSuspends : Prop :=
  ∀ (s : State) (c x cls : Nat) (q : Cause) (at_ : Where) (xl : Xl), (s.ctx c x).level = 0 → (s.ctx c x).held = none →
    q.code ≠ 0x37 →
    let t := takeCause s c x cls q at_
    let n := s.partOf c
    let p := s.part n
    let u := suspendCtx (s.modCtx c x fun k => { k with stepPending := false }) c x q.code
    let entry := p.tqbase + 64 * (p.tqprod % 2 ^ tqLen p.tqctl)
    let r : Rec := ⟨q, cls, 0, x, c, n, false, at_, false⟩
    (t.ctx c x).status = .suspended ∧ (t.ctx c x).suspCause = q.code ∧
    (t.ctx c x).regs = { (s.ctx c x).regs with vjoins := (t.ctx c x).regs.vjoins, recent := (t.ctx c x).regs.recent } ∧
    (p.tqSpace = false → (t.ctx c x).held = some r ∧ ∀ ga, t.byte ga = s.byte ga) ∧
    (p.tqSpace = true → p.tqstamp = 0 → p.recHeld = [] → walkPaused u n p.cfg.control entry = false →
      xlateP u n p.cfg.control 1 .write entry = .ok xl → refuses u xl.ga (r.bytes p.tqprod) = false → refused u n xl = false → xl.mode ≠ 3 →
      xl.mirror = none →
      (t.ctx c x).held = none ∧ (t.part n).tqprod = (p.tqprod + 1) % 2 ^ 64 ∧
      ∀ ga, t.byte ga = lastByte (cells xl.ga (r.bytes p.tqprod)) (s.byte ga) ga)

/-- A cause of a context at level S or F that holds no record and has INH clear vectors it: SEPC takes the program counter, SSTAT
the cause, the repetition and the pending transfer with INH set, SPTGT that transfer's target, and the next bundle is the one at STVEC
(R255).  Program counters and targets from 2^32 on (log entry 9), a transfer that is due or not taken and what SPTGT keeps of a transfer
without a target (log entry 13) are the model's readings. -/
def Obligations.SupervisorCauseVectors : Prop :=
  ∀ (s : State) (c x cls : Nat) (q : Cause) (at_ : Where), (s.ctx c x).level ≠ 0 → (s.ctx c x).held = none →
    sstatInh (s.ctx c x).sstat = false → q.code ≠ 0x37 → (s.ctx c x).regs.rep < 16 →
    (∀ p, (s.ctx c x).regs.pend = some p → p.left ≤ 3 ∧ (∀ l, p.kind = .loopEnter l → l < 4) ∧ ∀ l, p.kind = .loopEnd l → l < 4) →
    let k := s.ctx c x
    let t := (takeCause s c x cls q at_).ctx c x
    t.sepc = k.regs.pc % 2 ^ 32 ∧ sstatInh t.sstat = true ∧ t.sstat / 2 ^ 56 = q.code ∧
    t.sstat = q.code * 2 ^ 56 + k.regs.rep * 2 ^ 12 + pendBits k.regs.pend + 1 ∧ t.regs.pc = k.stvec ∧ t.regs.rep = 0 ∧
    (∀ n g, k.regs.pend = some ⟨.jump g, n⟩ → t.sptgt = g % 2 ^ 32) ∧ (∀ n, k.regs.pend = some ⟨.eret, n⟩ → t.sptgt = k.sepc % 2 ^ 32) ∧
    ((∀ p, k.regs.pend = some p → p.kind ≠ .eret ∧ ∀ g, p.kind ≠ .jump g) → t.sptgt = k.sptgt % 2 ^ 32) ∧
    t.regs.pend = none ∧ t.regs.g = k.regs.g ∧ t.regs.v = k.regs.v ∧ t.regs.inflight = k.regs.inflight ∧ t.stvec = k.stvec ∧
    t.level = k.level ∧ t.status = .ready ∧ t.stepPending = false

/-- Taking a cause and returning from it restores the point of interruption: program counter, repetition, idle cycles and pending
transfer, with every other register (R255, R256).  The model's readings: a transfer that is due (log entry 13), the idle cycles left, for
which SSTAT has no field (log entry 54), and program counters and targets from 2^32 on (log entry 9), which the premises leave out. -/
def Obligations.ReturnUndoesVector : Prop :=
  ∀ (k : Ctx) (code : Nat), k.regs.pc < 2 ^ 32 → k.regs.rep < 16 → code < 256 →
    (∀ p, k.regs.pend = some p → 1 ≤ p.left ∧ p.left ≤ 3 ∧ p.kind ≠ .eret ∧ (∀ g, p.kind = .jump g → g < 2 ^ 32) ∧
      (∀ l, p.kind = .loopEnter l → l < 4) ∧ ∀ l, p.kind = .loopEnd l → l < 4) →
    (returnFrom (vector k code)).regs = k.regs ∧ sstatInh (returnFrom (vector k code)).sstat = false

/-- `ERET` has all operand bits reserved and no EXT; with INH clear it takes the illegal-instruction trap; with INH set it is a
control instruction whose transfer comes after two delay bundles, and then INH is clear and SEPC, REPQ and the recorded transfer
are in force, or none where SSTAT records none (R256).  What a recorded DLY of 3 gives is the model's choice (log entry 76). -/
def Obligations.ExceptionReturn : Prop :=
  (∀ w e, w < 2 ^ 32 → bitsAt w 24 7 = 0x60 → (decodeSyl 0 w e = .ok .eret ↔ w = 0x60000000 ∧ e = none)) ∧
  (∀ s x, Ready s x .eret → (ctxOf s x).sstat % 2 = 0 →
    exec .eret s = .next (takeCause s s.cur x 0 { code := 0x03, slot := 0 } (whereOf s x 0))) ∧
  (∀ s x, Ready s x .eret → (ctxOf s x).sstat % 2 = 1 → Calm s x → NoLoopEnd s x .eret →
    ∃ t, exec .eret s = .next t ∧ (regsOf t x).pend = some ⟨.eret, 2⟩ ∧ (regsOf t x).pc = (regsOf s x).pc + 8) ∧
  (∀ s x, Ready s x .nop → (regsOf s x).pend = some ⟨.eret, 2⟩ → (regsOf s x).inflight = [] → (regsOf s x).xfers = [] →
    (ctxOf s x).seg = none → (ctxOf s x).dep = none → (regsOf s x).rep = 0 → NoLoopEnd s x .nop →
    ∃ t, exec .nop s = .next t ∧ (regsOf t x).pend = some ⟨.eret, 1⟩ ∧ (regsOf t x).pc = (regsOf s x).pc + 8) ∧
  (∀ s x, Ready s x .nop → (regsOf s x).pend = some ⟨.eret, 1⟩ → (regsOf s x).inflight = [] → (regsOf s x).xfers = [] →
    (ctxOf s x).seg = none → (ctxOf s x).dep = none → (regsOf s x).rep = 0 → NoLoopEnd s x .nop →
    (bits (ctxOf s x).sstat 10 2 ≠ 0 ∨ (ctxOf s x).sstat.testBit 9 = false) →
    ∃ t, exec .nop s = .next t ∧ sstatInh (ctxOf t x).sstat = false ∧ (regsOf t x).pc = (ctxOf s x).sepc ∧
      (regsOf t x).rep = bits (ctxOf s x).sstat 12 4 ∧ (regsOf t x).pend = sstatPend (ctxOf s x).sstat (ctxOf s x).sptgt ∧
      (bits (ctxOf s x).sstat 10 2 = 0 → (regsOf t x).pend = none))

/-! ### Bundles -/

/-- A bundle whose dependences are met and whose slots meet no trap commits: every slot's effect is computed from the context as it
stood at the start of the bundle; a first bundle of a segment has the segment opened before them, which shadows the registers; a bundle
with STK issues a recorded syllable again with its step count raised; a rendezvous bundle closes its segment and releases the units
marked in it; a reference to a dictionary entry issues the entry's syllables with its own fields, from a header of 4 bytes (R47 to R50,
R108, R110, R112, R119).  That the entry's fetch counts as the naming bundle issues is the model's reading of R285 (log entry 72), what
the loop buffer keeps of it its choice (log entry 83). -/
def Obligations.BundleCommits : Prop :=
  (∀ (s t : State) (x rep : Nat) (seg rdv stk : Bool) (own : List (Nat × Nat × Option Nat)), issuer s s.cur = some x →
    let r := regsOf s x
    let h : Head := ⟨bundleLen (.bundleIssue rep seg rdv stk own), rep, seg, rdv, stk, none⟩
    let ys := sylsOf r stk own none
    let mk := mkIss s s.cur x h ys (bndsOf r own)
    let s0 := if seg = true ∧ r.rep = 0 ∧ r.idleLeft = 0 ∧ (ctxOf s x).seg = none then openSegment s s.cur x else s
    breakCause (ctxOf s x) ys = none → illegalBundle s s.cur x h ys = false → (∀ y ∈ ys, sylFault s s.cur x y = none) →
    firstDep s mk ys = none → residueOf s s.cur x ys = none → runAll mk s0 ys = .ok t → (∀ y, (mk y).me = ctxOf s x) ∧
    exec (.bundleIssue rep seg rdv stk own) s = .next (commit s s.cur x h mk ys t)) ∧
  (∀ (s : State) (x : Nat) (y : Sticky) (i : Instr) (res : Option Res), issuer s s.cur = some x → Calm s x →
    let r := regsOf s x
    let ys := sylsOf r true [] none
    r.rep = 0 → r.sticky = [(1, y)] → decodeSyl 1 y.word y.ext = .ok i → scalarRes r i = some (1, res) →
    breakCause (ctxOf s x) ys = none → residueOf s s.cur x ys = none → (∀ l < 4, (r.loop l).act = true → (r.loop l).exit ≠ r.pc + 4) →
    ∃ t, exec (.bundleIssue 0 false false true []) s = .next t ∧
      (regsOf t x).sticky.find 1 = some { y with k := (y.k + 1) % 2 ^ 32 } ∧ (regsOf t x).pc = r.pc + 4 ∧
      (regsOf t x).g = (match res with | some (.g d v) => (r.wg d v).g | _ => r.g)) ∧
  (∀ (s : State) (x : Nat), issuer s s.cur = some x → breakCause (ctxOf s x) [] = none → Calm s x → (regsOf s x).rep = 0 →
    (regsOf s x).idleLeft = 0 → (∀ l < 4, ((regsOf s x).loop l).act = true → ((regsOf s x).loop l).exit ≠ (regsOf s x).pc + 4) →
    ∃ t g, exec (.idleBundle true false 1) s = .next t ∧ (ctxOf t x).seg = some g ∧ g.shadow = regsOf s x ∧ g.undo = [] ∧
      (regsOf t x).pc = (regsOf s x).pc + 4) ∧
  (∀ (s : State) (x : Nat) (g : Segment), issuer s s.cur = some x → breakCause (ctxOf s x) [] = none → (ctxOf s x).seg = some g →
    g.beats = [] → (regsOf s x).inflight = [] → (regsOf s x).xfers = [] → (regsOf s x).pend = none → (ctxOf s x).dep = none →
    (regsOf s x).rep = 0 → (regsOf s x).idleLeft = 0 →
    (∀ l < 4, ((regsOf s x).loop l).act = true → ((regsOf s x).loop l).exit ≠ (regsOf s x).pc + 4) →
    ∃ t, exec (.idleBundle false true 1) s = .next t ∧ (ctxOf t x).seg = none ∧ (regsOf t x).pc = (regsOf s x).pc + 4 ∧
      (∀ ga, t.byte ga = s.byte ga) ∧ ∀ e ∈ (t.core s.cur).claims, ¬(e.2.owner = x ∧ e.2.mark = true)) ∧
  (∀ (s : State) (x rep idx : Nat) (seg rdv stk : Bool) (syls : List (Nat × Nat × Option Nat)), issuer s s.cur = some x →
    let base := (ctxOf s x).info.dictVa + 96 * idx
    let place := (regsOf s x).pc + 1
    let run := fun (t : State) => Host.Outcome.next (issueBundle t x ⟨4, rep, seg, rdv, stk, some idx⟩ syls)
    fetchEntry s s.cur x idx = .ok syls →
    (pinned s s.cur x place = false → fetchPaused s s.cur base 96 = false →
      exec (.dictionaryReference rep seg rdv stk idx) s = run (keepPinned (countFetch s s.cur x base 96) s.cur x place)) ∧
    (pinned s s.cur x place = true → exec (.dictionaryReference rep seg rdv stk idx) s = run s))

/-- An idle bundle goes on for its count of cycles, one a step: `LTIME` rises by one each, everything else is as it was but for the charge,
every register, special register, hold latch and sticky record and all of memory, and after the last cycle the program counter stands 4
bytes further (R24, R109). -/
def Obligations.IdleBundle : Prop :=
  ∀ (s : State) (x n : Nat), issuer s s.cur = some x → breakCause (ctxOf s x) [] = none → Calm s x → 1 ≤ n →
    (∀ l < 4, ((regsOf s x).loop l).act = true → ((regsOf s x).loop l).exit ≠ (regsOf s x).pc + 4) → (regsOf s x).rep = 0 →
    ∃ t, exec (.idleBundle false false n) s = .next t ∧ (∀ ga, t.byte ga = s.byte ga) ∧
      let left := if (regsOf s x).idleLeft = 0 then n else (regsOf s x).idleLeft
      OnlyRegs s t x ∧ (regsOf t x).holds = (regsOf s x).holds ∧ (regsOf t x).sticky = (regsOf s x).sticky ∧
      (left ≤ 1 → MovedOn (regsOf s x) 4 [] (regsOf t x)) ∧
      (1 < left → regsOf t x = { regsOf s x with
        ltime := (regsOf s x).ltime + 1, idleLeft := left - 1, recent := (regsOf t x).recent, vjoins := (regsOf t x).vjoins })

/-! ### What an instruction does at its issue, by family -/

/-- Every scalar instruction has its result on its way with its latency, and none where its guard fails (R131 to R138). -/
def Obligations.ScalarResults : Prop :=
  ∀ (s : State) (x : Nat) (i : Instr) (q : Nat × Option Res), Ready s x i → scalarRes (regsOf s x) i = some q →
    exec i s = .next (issued s x i ((issOf s x i).emitAny q s))

/-- A scalar instruction of a calm context changes registers of its context alone: a result of latency 1 stands for the next bundle,
one of a longer latency comes later, everything else is as it was, all of memory too (R24, R119, R131). -/
def Obligations.ScalarFrame : Prop :=
  ∀ (s : State) (x lat : Nat) (i : Instr) (res : Option Res), Ready s x i → Calm s x → NoLoopEnd s x i →
    scalarRes (regsOf s x) i = some (lat, res) →
    ∃ t, exec i s = .next t ∧ OnlyRegs s t x ∧ (∀ ga, t.byte ga = s.byte ga) ∧
      MovedOn
        (match lat, res with
          | 1, some (.g d v) => (regsOf s x).wg d v
          | 1, some (.p d v) => (regsOf s x).wp d v
          | _, _ => regsOf s x)
        (soleHead i).len
        (match lat, res with
          | 1, _ => []
          | _, some y => [⟨(regsOf s x).ltime, (regsOf s x).ltime + lat, y⟩]
          | _, none => [])
        (regsOf t x)

/-- Reads and writes of the special registers and every instruction on the address registers; the value that `SRD` leaves for the next
bundle is the register's as it stands at its issue, other registers staying (R139 to R142).  What PTIME's samples are is the model's
choice (log entry 1), an owner's place in a slot table its reading (log entry 19). -/
def Obligations.SpecialAndAddressRegisters : Prop :=
  (∀ (s t : State) (x : Nat) (i : Instr), Ready s x i →
    (specialEffect (issOf s x i) s i = some t ∨ addressEffect (issOf s x i) s i = some t) → exec i s = .next (issued s x i t)) ∧
  (∀ (s : State) (x d sr idx p v : Nat) (pn : Bool), Ready s x (.srd d sr idx p pn) → Calm s x → NoLoopEnd s x (.srd d sr idx p pn) →
    ∃ t, exec (.srd d sr idx p pn) s = .next t ∧ (∀ n, n ≠ d → (regsOf t x).rg n = (regsOf s x).rg n) ∧
      (guard (regsOf s x) p pn = true → srReads s x sr idx v →
        (regsOf t x).rg d = if d = 0 then 0 else BitVec.ofNat 64 v) ∧
      (guard (regsOf s x) p pn = false → (regsOf t x).rg d = (regsOf s x).rg d))

/-- Branches, calls, loops, `ENDK` and `ERET` leave their transfer pending for two delay bundles; `NOP`, `GEAR`, `LQSTAT`, `DLCHK`,
`LAUNCH` and the commit of `TRAP` (R120, R143 to R148, R153 to R157, R256).  A target outside the text (log entry 9) and the place of
the link behind delay bundles (log entry 20) are the model's readings. -/
def Obligations.ControlInstructions : Prop :=
  ∀ (s t : State) (x : Nat) (i : Instr), Ready s x i →
    (transferEffect (issOf s x i) s i = some t ∨ controlEffect (issOf s x i) s i = some t) →
    exec i s = .next (issued s x i t)

/-- `TRAP code` at level U commits its bundle and then suspends the context with the user trap; the context goes on behind it when it
is resumed (R154, R255). -/
def Obligations.TrapRequest : Prop :=
  ∀ (s : State) (x code : Nat), Ready s x (.trap code) → (ctxOf s x).level = 0 → (ctxOf s x).held = none → Calm s x →
    NoLoopEnd s x (.trap code) →
    ∃ t, exec (.trap code) s = .next t ∧ (ctxOf t x).status = .suspended ∧ (ctxOf t x).suspCause = 0x06 ∧
      (regsOf t x).pc = (regsOf s x).pc + 8 ∧ (regsOf t x).ltime = (regsOf s x).ltime + 1 ∧ (regsOf t x).g = (regsOf s x).g

/-- Barriers, monitors, stamps and fences whose dependence is met and whose operands meet no trap (R88 to R96, R149 to R152, R166,
R182 to R185).  What the race detector learns of each (log entry 39) and what a stamp in the own scratchpad waits for (log entry 66)
are the model's readings. -/
def Obligations.Synchronisation : Prop :=
  ∀ (s t : State) (x : Nat) (i : Instr), Ready s x i → syncEffect (issOf s x i) s i = some t → exec i s = .next (issued s x i t)

/-- Loads: the value of the aligned bytes of the own scratchpad, in the view of the instruction, at its latency.  Stores: the bytes of the
source at their addresses, those of the own scratchpad in the core, all others posted (R82, R85, R86, R160 to R165, R227). -/
def Obligations.LoadsAndStores : Prop :=
  ∀ (s t : State) (x : Nat) (i : Instr), Ready s x i →
    (loadEffect (issOf s x i) s i = some t ∨ storeEffect (issOf s x i) s i = some t) →
    exec i s = .next (issued s x i t)

/-- A store or scatter changes no byte and no register at its issue: the bytes it stores in the own scratchpad are in flight and land
two cycles later, at the addresses that its address computation gives; bytes elsewhere are posted, an operation for each granule of each
access (R86, R160 to R165). -/
def Obligations.StoreFrame : Prop :=
  ∀ (s u : State) (x : Nat) (swz : Bool) (acc : List (List (Nat × Byte))) (i : Instr), Ready s x i → Calm s x →
    NoLoopEnd s x i → storeEffect (issOf s x i) s i = some u → storeAccesses (issOf s x i) i = some (swz, acc) →
    let j := issOf s x i
    ∃ t own new, exec i s = .next t ∧ (∀ ga, t.byte ga = s.byte ga) ∧ ownCells j swz (acc.flatMap id) = some own ∧
      t.ops = s.ops ++ new ∧ new.map (·.kind) = (acc.flatMap (outParts j)).map .store ∧
      MovedOn { regsOf s x with unfenced := (regsOf t x).unfenced } (soleHead i).len
        (if own.isEmpty then [] else [⟨j.lt, j.lt + 2, .store swz own⟩]) (regsOf t x) ∧
      t.core s.cur = { s.core s.cur with ctxs := (t.core s.cur).ctxs } ∧ ∀ c, c ≠ s.cur → t.core c = s.core c

/-- A store of the core in flight lands at its cycle: its bytes stand in memory, and no other byte changes (R119, R167); inside an open
segment the undo log then holds what each 64-byte unit held before (R49). -/
def Obligations.StoreLands : Prop :=
  (∀ (s : State) (x iss : Nat) (swz : Bool) (bytes : List (Nat × Byte)), Ready s x .nop →
    (regsOf s x).inflight = [⟨iss, (regsOf s x).ltime + 1, .store swz bytes⟩] → (regsOf s x).xfers = [] → (ctxOf s x).seg = none →
    (regsOf s x).pend = none → (ctxOf s x).dep = none → s.poison = [] →
    ∃ t, exec .nop s = .next t ∧ (regsOf t x).inflight = [] ∧ ∀ ga, t.byte ga = lastByte bytes (s.byte ga) ga) ∧
  (∀ (s : State) (x iss : Nat) (swz : Bool) (bytes : List (Nat × Byte)) (g : Segment), Ready s x .nop →
    (regsOf s x).inflight = [⟨iss, (regsOf s x).ltime + 1, .store swz bytes⟩] → (regsOf s x).xfers = [] → (ctxOf s x).seg = some g →
    g.undo = [] → (regsOf s x).pend = none → (ctxOf s x).dep = none → s.poison = [] →
    ∃ t g', exec .nop s = .next t ∧ (ctxOf t x).seg = some g' ∧ (∀ ga, t.byte ga = lastByte bytes (s.byte ga) ga) ∧
      ∀ b ∈ bytes, ∃ u ∈ g'.undo, u.kind = 0 ∧ u.unit = b.1 / 64 ∧ u.image = readNat s.mem 64 (64 * u.unit))

/-- Element-wise integer, floating-point and special-function instructions: each active element by its rule, the others as they stood,
the flags with the result (R52 to R72, R79, R196, R199, R200, R203, R205, R220, R221). -/
def Obligations.ElementWise : Prop :=
  ∀ (s t : State) (x : Nat) (i : Instr), Ready s x i →
    (((intElem i).bind fun q => q.effect (issOf s x i) s) = some t ∨ ((fpElem i).bind fun q => q.effect (issOf s x i) s) = some t) →
    exec i s = .next (issued s x i t)

/-- Bitwise logic, compares and classes; conversions, quantising and expansion (R57 to R64, R73 to R75, R201, R202, R204, R206 to R209). -/
def Obligations.LogicCompareConvert : Prop :=
  ∀ (s t : State) (x : Nat) (i : Instr), Ready s x i →
    (logicEffect (issOf s x i) s i = some t ∨ compareEffect (issOf s x i) s i = some t ∨ convertEffect (issOf s x i) s i = some t) →
    exec i s = .next (issued s x i t)

/-- Selections, moves, broadcasts, insertions, the shape and tags; reductions, reads across lanes and rotations along the shape (R78,
R197, R210 to R216). -/
def Obligations.MovesAndShapedReads : Prop :=
  ∀ (s t : State) (x : Nat) (i : Instr), Ready s x i →
    (moveEffect (issOf s x i) s i = some t ∨ shapedEffect (issOf s x i) s i = some t) →
    exec i s = .next (issued s x i t)

/-- Streams and lane masks (R217 to R219).  `VSPUSH` on an empty queue and `VSBAL` on two are the model's reading (log entry 21). -/
def Obligations.StreamsAndMasks : Prop :=
  ∀ (s t : State) (x : Nat) (i : Instr), Ready s x i → maskEffect (issOf s x i) s i = some t → exec i s = .next (issued s x i t)

/-- The matrix instructions on units that the context holds (R223 to R233). -/
def Obligations.MatrixResults : Prop :=
  ∀ (s t : State) (x : Nat) (i : Instr), Ready s x i → matrixEffect (issOf s x i) s i = some t → exec i s = .next (issued s x i t)

/-- The modular instructions and the butterfly network (R234 to R241). -/
def Obligations.ModularResults : Prop :=
  ∀ (s t : State) (x : Nat) (i : Instr), Ready s x i → modularEffect (issOf s x i) s i = some t → exec i s = .next (issued s x i t)

/-- The copy sequencer's fields and the start of copies; beats sent and taken; atomics; shelf requests (R44, R168 to R178, R186 to R190);
a copy whose claim overruns the context's share of the skid buffer, counting only the transfers that are not due, takes the
skid-overrun trap, and one that overruns it otherwise freezes (R29).  The sequencer's queue (log entry 36), addresses of unknown class
(log entry 37) and the way of returns (log entry 42) are the model's readings. -/
def Obligations.CopiesChannelsAtomics : Prop :=
  (∀ (s t : State) (x : Nat) (i : Instr), Ready s x i →
    (copyRowEffect (issOf s x i) s i = some t ∨ channelEffect (issOf s x i) s i = some t ∨ atomEffect (issOf s x i) s i = some t) →
    exec i s = .next (issued s x i t)) ∧
  (∀ (s : State) (x : Nat) (i : Instr) (plan : Iss → State → Except Stop Plan) (p : Plan), Ready s x i →
    (∃ d gs c, (i = .seqgo d gs c ∧ plan = seqgoPlan d gs c) ∨ ∃ sz, i = .tmov d gs c sz ∧ plan = tmovPlan d gs c sz) →
    let j := issOf s x i
    seqQueued s s.cur < 16 → plan j s = .ok p → readWait j s (planGas j p) = .ok → p.sched j = true →
    (16384 < claims s s.cur x (some j.lt) + p.claim →
      exec i s = .next (takeCause s s.cur x 0 { code := 0x0A, slot := 10 } (whereOf s x 10))) ∧
    (16384 < claims s s.cur x none + p.claim → claims s s.cur x (some j.lt) + p.claim ≤ 16384 →
      exec i s = .next (freeze s s.cur x (.skid p.claim))))

/-- Near-memory commands, bound registers, companding tables, collectives, prefetch; the privileged instructions at levels S and F (R179,
R191 to R194, R257 to R259, R265, R269, R274, R289, R308).  Where a command's stack is found (log entry 41), how far a prefetch
walks (log entry 44) and what a save waits for (log entry 45) are the model's readings; what makes a trace block malformed (log entry
78), and that `TRCCTL` waits for its memory (log entry 80), its choices. -/
def Obligations.DescriptorsAndPrivileged : Prop :=
  ∀ (s t : State) (x : Nat) (i : Instr), Ready s x i →
    (descEffect (issOf s x i) s i = some t ∨ privEffect (issOf s x i) s i = some t) →
    exec i s = .next (issued s x i t)

/-- With no bound register in flag mode (one posts a record), an instruction of the vector and network slots of a calm context
changes nothing at its issue but the context's position and, of a stream instruction, its queues: every result and flag comes later, by
a latency of 2 or more, but for the shape that `VSHAPE` sets, and no byte of memory changes (R119, R196, R217). -/
def Obligations.VectorFrame : Prop :=
  ∀ (s u : State) (x : Nat) (i : Instr), Ready s x i → Calm s x → NoLoopEnd s x i →
    (∀ n, ((regsOf s x).bd.get Bound.zero n).mode ≠ 1) →
    ((((intElem i).bind fun q => q.effect (issOf s x i) s) = some u ∨ ((fpElem i).bind fun q => q.effect (issOf s x i) s) = some u) ∨
      logicEffect (issOf s x i) s i = some u ∨ compareEffect (issOf s x i) s i = some u ∨ convertEffect (issOf s x i) s i = some u ∨
      moveEffect (issOf s x i) s i = some u ∨ shapedEffect (issOf s x i) s i = some u ∨ maskEffect (issOf s x i) s i = some u ∨
      modularEffect (issOf s x i) s i = some u) →
    ∃ t, exec i s = .next t ∧ OnlyRegs s t x ∧ (∀ ga, t.byte ga = s.byte ga) ∧
      MovedOn { regsOf s x with streams := (regsOf t x).streams, vshape := (regsOf t x).vshape } (soleHead i).len
        (regsOf t x).inflight (regsOf t x) ∧
      (maskEffect (issOf s x i) s i = none → (regsOf t x).streams = (regsOf s x).streams) ∧
      ((∀ rc, i ≠ .vshape rc) → (regsOf t x).vshape = (regsOf s x).vshape) ∧
      (∀ rc, i = .vshape rc → (regsOf t x).vshape = rc) ∧
      ∀ f ∈ (regsOf t x).inflight, f.iss = (regsOf s x).ltime ∧ f.due ≥ (regsOf s x).ltime + 2

/-- With no bound register in flag mode (one posts a record), no instruction of a calm context changes a byte of memory at its
issue, but for `TRAP` with its record, `RECV` to memory with its beats of latency 1, and the privileged ones (R82, R119, R160). -/
def Obligations.MemoryFrame : Prop :=
  ∀ (s u : State) (x : Nat) (i : Instr), Ready s x i → Calm s x → privileged i = false → (∀ code, i ≠ .trap code) →
    (∀ n, ((regsOf s x).bd.get Bound.zero n).mode ≠ 1) → (∀ e ch a nb gn, i ≠ .recvMem e ch a nb gn) →
    syllableEffect (issOf s x i) s i = some u →
    ∃ t, exec i s = .next t ∧ ∀ ga, t.byte ga = s.byte ga

/-! ### Single rules -/

/-- `CLZ` and `POPC`: layout of R133 without B, U and EXT, guarded, latency 1; the count of leading zero bits, 64 of a zero operand,
and of one bits (R134). -/
def Obligations.CountBits : Prop :=
  (∀ (slot w : Nat) (e : Option Nat) (d a p : Nat) (pn : Bool), slot = 1 ∨ slot = 2 → w < 2 ^ 32 →
    (decodeSyl slot w e = .ok (.clz d a p pn) ↔
      e = none ∧ d < 64 ∧ a < 64 ∧ p < 16 ∧ w = 0x10 * 2 ^ 24 + d * 2 ^ 18 + a * 2 ^ 12 + p * 2 ^ 2 + pn.toNat * 2) ∧
    (decodeSyl slot w e = .ok (.popc d a p pn) ↔
      e = none ∧ d < 64 ∧ a < 64 ∧ p < 16 ∧ w = 0x11 * 2 ^ 24 + d * 2 ^ 18 + a * 2 ^ 12 + p * 2 ^ 2 + pn.toNat * 2)) ∧
  (∀ (s : State) (x d a p : Nat) (pn : Bool), Ready s x (.clz d a p pn) → Calm s x → NoLoopEnd s x (.clz d a p pn) →
    ∃ t, exec (.clz d a p pn) s = .next t ∧
      (guard (regsOf s x) p pn = false → (regsOf t x).g = (regsOf s x).g) ∧
      (guard (regsOf s x) p pn = true → ∃ n ≤ 64, (∀ k < n, ((regsOf s x).rg a).getMsbD k = false) ∧
        (n < 64 → ((regsOf s x).rg a).getMsbD n = true) ∧ (regsOf t x).rg d = (if d = 0 then 0 else BitVec.ofNat 64 n) ∧
        ∀ r, r ≠ d → (regsOf t x).rg r = (regsOf s x).rg r)) ∧
  (∀ (s : State) (x d a p : Nat) (pn : Bool), Ready s x (.popc d a p pn) → Calm s x → NoLoopEnd s x (.popc d a p pn) →
    ∃ t, exec (.popc d a p pn) s = .next t ∧
      (guard (regsOf s x) p pn = false → (regsOf t x).g = (regsOf s x).g) ∧
      (guard (regsOf s x) p pn = true →
        (regsOf t x).rg d = (if d = 0 then 0 else
          BitVec.ofNat 64 ((List.range 64).filter fun k => ((regsOf s x).rg a).getLsbD k).length) ∧
        ∀ r, r ≠ d → (regsOf t x).rg r = (regsOf s x).rg r))

/-- Division truncates toward zero and the remainder takes the sign of the dividend; dividend = quotient·divisor + remainder but for
a zero divisor, which gives all ones and the dividend, and for the most negative dividend by −1, which gives itself and 0 (R55). -/
def Obligations.DivisionTruncates : Prop :=
  (∀ a b : Word, b ≠ 0 → (divW true a b).toNat = a.toNat / b.toNat ∧ (remW true a b).toNat = a.toNat % b.toNat ∧
    a.toNat = (divW true a b).toNat * b.toNat + (remW true a b).toNat) ∧
  (∀ a b : Word, b ≠ 0 → ¬(a = BitVec.intMin 64 ∧ b = -1) →
    (divW false a b).toInt = a.toInt.tdiv b.toInt ∧ a.toInt = (divW false a b).toInt * b.toInt + (remW false a b).toInt ∧
    ((remW false a b).toInt = 0 ∨ (remW false a b).toInt.sign = a.toInt.sign) ∧ (remW false a b).toInt.natAbs < b.toInt.natAbs) ∧
  (∀ (a : Word) (u : Bool), divW u a 0 = BitVec.allOnes 64 ∧ remW u a 0 = a) ∧
  (divW false (BitVec.intMin 64) (-1) = BitVec.intMin 64 ∧ remW false (BitVec.intMin 64) (-1) = 0) ∧
  (∀ (s : State) (x : Nat) (e : Option Nat) (d a b p : Nat) (pn u : Bool), guard (regsOf s x) p pn = true →
    (Ready s x (.div e d a b p pn u) → exec (.div e d a b p pn u) s = .next (issued s x (.div e d a b p pn u)
      ((issOf s x (.div e d a b p pn u)).emit 12 (.g d (divW u ((regsOf s x).rg a) (src2 (regsOf s x) e b))) s))) ∧
    (Ready s x (.rem e d a b p pn u) → exec (.rem e d a b p pn u) s = .next (issued s x (.rem e d a b p pn u)
      ((issOf s x (.rem e d a b p pn u)).emit 12 (.g d (remW u ((regsOf s x).rg a) (src2 (regsOf s x) e b))) s))))

/-- A `BWAIT` for phase *n* goes on when (PASSED − *n* − 1) mod 2^32 is below 2^31, with what the barrier's arrivals have carried (R98,
R103), and freezes its context otherwise (R90); on a broken barrier, and on one that is not armed, it takes the barrier trap with the
barrier and the phase (R149, R263).  That a barrier which is both reports broken is the order of log entry 24. -/
def Obligations.BarrierWait : Prop :=
  ∀ (s : State) (x : Nat) (e : Option Nat) (bar gn : Nat), Ready s x (.bwait e bar gn) →
    let b := (s.core s.cur).bars.get Barrier.start bar
    let n : Nat := (gOrZext (regsOf s x) e gn).toNat % 2 ^ 32
    let trap := fun (kind : Nat) =>
      takeCause s s.cur x 0 { code := 0x16, slot := 0, info0 := kind + bar * 2 ^ 16, info1 := n } (whereOf s x 0)
    (b.brk = true → exec (.bwait e bar gn) s = .next (trap 0)) ∧
    (b.brk = false → b.exp = 0 → exec (.bwait e bar gn) s = .next (trap 1)) ∧
    (b.brk = false → b.exp ≠ 0 → ((b.passed : Int) - (n : Int) - 1) % 2 ^ 32 < 2 ^ 31 →
      exec (.bwait e bar gn) s = .next (issued s x (.bwait e bar gn) (s.modCore s.cur fun k => { k with k := mergeVec b.kv k.k }))) ∧
    (b.brk = false → b.exp ≠ 0 → ¬((b.passed : Int) - (n : Int) - 1) % 2 ^ 32 < 2 ^ 31 →
      exec (.bwait e bar gn) s = .next (freeze s s.cur x (.barrier bar n)))

/-- `LOOP.end l`: a control instruction of two delay bundles and no transfer, after which ACT of levels 0 to *l* is clear, active
before or not; no address register and no count register changes (R147).  A bundle that ends the body of the innermost active loop
takes its loop step: every address register takes the level's stride, and the body runs again, or with no iteration left the level
ends (R146); a `LOOP` enters its body after its delay bundles with the address registers at the core's first index, or with a count of
0 goes to its exit (R42, R145). -/
def Obligations.LoopEndClears : Prop :=
  (∀ l, Sys2Proof.Machine.control (.loopEnd l) = true) ∧
  (∀ s x l, Ready s x (.loopEnd l) → Calm s x → NoLoopEnd s x (.loopEnd l) →
    ∃ t, exec (.loopEnd l) s = .next t ∧ (regsOf t x).pend = some ⟨.loopEnd l, 2⟩ ∧ (regsOf t x).pc = (regsOf s x).pc + 8 ∧
      (regsOf t x).a = (regsOf s x).a ∧ (regsOf t x).lc = (regsOf s x).lc ∧ (regsOf t x).loops = (regsOf s x).loops) ∧
  (∀ s x l n, Ready s x .nop → (regsOf s x).pend = some ⟨.loopEnd l, n⟩ → n = 1 ∨ n = 2 → (regsOf s x).inflight = [] →
    (regsOf s x).xfers = [] → (ctxOf s x).seg = none → (ctxOf s x).dep = none → NoLoopEnd s x .nop →
    ∃ t, exec .nop s = .next t ∧ (regsOf t x).pc = (regsOf s x).pc + 8 ∧ (regsOf t x).a = (regsOf s x).a ∧
      (regsOf t x).lc = (regsOf s x).lc ∧ (regsOf t x).pend = (if n = 2 then some ⟨.loopEnd l, 1⟩ else none) ∧
      ∀ k, ((regsOf t x).loop k).act = (if n = 1 ∧ k ≤ l then false else ((regsOf s x).loop k).act)) ∧
  (∀ s x l, Ready s x .nop → Calm s x → l < 4 → (∀ k < l, ((regsOf s x).loop k).act = false) → ((regsOf s x).loop l).act = true →
    ((regsOf s x).loop l).exit = (regsOf s x).pc + 8 →
    let v := (regsOf s x).loop l
    (v.remain ≤ 1 → ∀ k < 4, l < k → ((regsOf s x).loop k).act = true → ((regsOf s x).loop k).exit ≠ (regsOf s x).pc + 8) →
    ∃ t, exec .nop s = .next t ∧ (regsOf t x).pc = (if v.remain ≤ 1 then (regsOf s x).pc + 8 else v.start) ∧
      (regsOf t x).loop l = { v with remain := v.remain - 1, index := v.index + 1, act := decide (1 < v.remain) } ∧
      (∀ k, k ≠ l → (regsOf t x).loop k = (regsOf s x).loop k) ∧ (regsOf t x).lc = (regsOf s x).lc ∧
      ∀ n < 16, (regsOf t x).ra n = (regsOf s x).ra n + (regsOf s x).rstr n l) ∧
  (∀ s x l, Ready s x .nop → (regsOf s x).pend = some ⟨.loopEnter l, 1⟩ → (regsOf s x).inflight = [] → (regsOf s x).xfers = [] →
    (ctxOf s x).seg = none → (ctxOf s x).dep = none → NoLoopEnd s x .nop →
    let v := (regsOf s x).loop l
    ∃ t, exec .nop s = .next t ∧ (regsOf t x).pend = none ∧
      (v.remain = 0 → (regsOf t x).pc = v.exit ∧ (regsOf t x).a = (regsOf s x).a ∧ (regsOf t x).loops = (regsOf s x).loops) ∧
      (v.remain ≠ 0 → (regsOf t x).pc = v.start ∧ (regsOf t x).loop l = { v with act := true } ∧
        ∀ n < 16, (regsOf t x).ra n = (regsOf s x).ra n + BitVec.ofNat 57 v.index * (regsOf s x).rstr n l))

/-- `MZERO accT`: its layout in the M slot, and at *i* + 1 every element of the tile is zero bits; other tiles stay (R231). -/
def Obligations.TileZeroed : Prop :=
  (∀ (w : Nat) (e : Option Nat) (acc : Nat), w < 2 ^ 32 →
    (decodeSyl 8 w e = .ok (.mzero acc) ↔ e = none ∧ acc < 48 ∧ w = 0x08 * 2 ^ 24 + acc * 2 ^ 18)) ∧
  (∀ (s : State) (x acc : Nat), Ready s x (.mzero acc) → Calm s x → NoLoopEnd s x (.mzero acc) → claimed s s.cur x 1 acc = true →
    ∃ t, exec (.mzero acc) s = .next t ∧ (∀ r < 64, accRow t s.cur acc r = 0) ∧
      (∀ tile r, tile ≠ acc → r < 64 → accRow t s.cur tile r = accRow s s.cur tile r) ∧ (∀ ga, t.byte ga = s.byte ga) ∧
      (regsOf t x).g = (regsOf s x).g ∧ (regsOf t x).v = (regsOf s x).v)

/-! ### Events: contexts, causes and registers -/

/-- A frozen context becomes ready when its dependence is met, an idle one when its queue or its monitors have moved; a command to a
suspended context resumes it, with STEP for one bundle, an idle one to its `IDLE`, but on a task core while a checkpoint or an emergency
save holds the cores (R343, R353); SUSPEND stops a ready or frozen context, ABORT ends
the part of a suspended one (R31, R38, R39, R265, R274).  What the cycles before a wake-up charge is the model's choice (log entry 15);
that the cores are held so (log entry 46), and that RESUME ends the task of a context whose `ENDK` is due (log entry 13), are its readings. -/
def Obligations.ContextEvents : Prop :=
  (∀ (s : State) (c x : Nat) (d : Dep), (s.ctx c x).status = .frozen → (s.ctx c x).dep = some d → depMet s c x d = true →
    (d.isIdle = false → exec (.contextReady c x) s = .next (makeReady s c x)) ∧
    (d.isIdle = true → exec (.idleWake c x) s = .next (makeReady s c x)) ∧
    ((makeReady s c x).ctx c x).status = .ready ∧ ((makeReady s c x).ctx c x).dep = none) ∧
  (∀ (s : State) (c x : Nat), (s.ctx c x).status = .suspended → (s.ctx c x).busy = false → (s.ctx c x).ends = false →
    (c < 512 → startsHeld s = false) →
    let on : Status := if (s.ctx c x).dep.any Dep.isIdle then .frozen else .ready
    (∃ t, exec (.resume c x) s = .next t ∧ (t.ctx c x).status = on ∧ (t.ctx c x).suspCause = 0 ∧
      (t.ctx c x).stepPending = false ∧ (t.ctx c x).regs.pc = (s.ctx c x).regs.pc) ∧
    ∃ t, exec (.step c x) s = .next t ∧ (t.ctx c x).status = on ∧ (t.ctx c x).suspCause = 0 ∧ (t.ctx c x).stepPending = true ∧
      (t.ctx c x).stepAt = ((s.ctx c x).regs.pc, (s.ctx c x).regs.rep)) ∧
  (∀ (s : State) (c x : Nat), (s.ctx c x).status = .suspended → (s.ctx c x).busy = false → (s.ctx c x).ends = true →
    (c < 512 → startsHeld s = false) → exec (.resume c x) s = .next (endTask s c x false)) ∧
  (∀ (s : State) (c x : Nat), c < 512 → startsHeld s = true → exec (.resume c x) s = .next s ∧ exec (.step c x) s = .next s) ∧
  (∀ (s : State) (c x : Nat), (s.ctx c x).status = .ready ∨ (s.ctx c x).status = .frozen → (s.ctx c x).busy = false →
    ∃ t, exec (.suspend c x) s = .next t ∧ (t.ctx c x).status = .suspended ∧ (t.ctx c x).suspCause = 0 ∧
      (t.ctx c x).dep = (s.ctx c x).dep.filter Dep.isIdle ∧
      (t.ctx c x).regs.pc = (s.ctx c x).regs.pc ∧ (t.ctx c x).regs.inflight = (s.ctx c x).regs.inflight) ∧
  (∀ (s : State) (c x : Nat), (s.ctx c x).status = .suspended → (s.ctx c x).busy = false →
    exec (.abort c x) s = .next (endTask s c x true) ∧ ((endTask s c x true).ctx c x).status = .empty)

/-- A held record is posted when its queue has space and no bound event of its context waits before it; a deferred cause is taken at its
context's next boundary with INFO3 = `LTIME`, but a line consumed in an open segment rewinds the segment the first time (R105, R262, R264,
R326); a cause of a task that has ended is posted with ENDED, and a memory-poison fault among them logged (R307, R347).  What a log record
holds besides (log entry 28) and where a cause goes whose context still holds a record (log entry 77) are the model's choices. -/
def Obligations.RecordEvents : Prop :=
  (∀ (s u : State) (c x : Nat) (r : Rec), (s.ctx c x).held = some r → (s.part (s.partOf c)).recHeld = [] →
    (s.part r.part).recHeld = [] → postRecord s r.part r = .ok u →
    ∃ t, exec (.heldRecordPost c x) s = .next t ∧ (t.ctx c x).held = none ∧ t.mem = u.mem ∧ ∀ p, t.part p = u.part p) ∧
  (∀ (s : State) (c x : Nat) (r : Rec), (s.ctx c x).held = some r → s.isSuper c x = false →
    (s.part r.part).recHeld.any (Rec.waits c x false) = true → exec (.heldRecordPost c x) s = .next s) ∧
  (∀ (s : State) (c x : Nat) (r : Rec) (rest : List Rec), atBoundary s c x = true → (s.ctx c x).deferred = r :: rest →
    let u := s.modCtx c x fun k => { k with deferred := rest }
    let q := { r.cause with info3 := (s.ctx c x).regs.ltime }
    ((s.ctx c x).seg = none ∨ r.cause.line = none → exec (.deferredCauseTaken c x) s = .next (takeCause u c x 1 q r.at_)) ∧
    ∀ g l, (s.ctx c x).seg = some g → r.cause.line = some l → exec (.deferredCauseTaken c x) s = .next (
      if g.chain.contains l then takeCause u c x 1 { q with info2 := 1 } r.at_ else rewindNow u c x (some l) false)) ∧
  (∀ (s u : State) (id : Nat) (t : Task) (r : Rec) (rest : List Rec), s.tasks.find? (fun t => t.id == id) = some t →
    t.causes = r :: rest → postRecord s t.part r = .ok u →
    let v := if r.cause.code = 0x37 then u.logEvent else u
    let kept := if t.state ≥ 3 ∧ rest = [] ∧ opsLeft v id = false then v.tasks.filter (fun w => w.id != id)
      else v.tasks.map fun w => if w.id = id then { t with causes := rest } else w
    exec (.endedCauseRecord id) s = .next { v with tasks := kept }) ∧
  ∀ (s : State) (die : Nat) (r : Rec) (rest : List Rec), (s.part (kloty die)).kq = r :: rest →
    exec (.klotyQueueRecord die) s =
      .next (s.modPart (kloty die) fun q => { q with kq := rest, tqcons := (q.tqcons + 1) % 2 ^ 64 }).logEvent

/-- Writes of registers: the values they take; a value that R66, R258 or R259 does not admit, and a context that R258 and R364 do not
open, leave every register as it is; bits of FACC0 to FACC3 that R348 does not list stay 0 (log entry 51), and bits 11:0 of EVBASE
(log entry 73) and TQSTAMP's bits 2:0 (log entry 75) are the model's choices. -/
def Obligations.RegisterWrites : Prop :=
  (∀ (s : State) (p v : Nat),
    exec (.tqctlWrite p v) s = .next (if tqctlBad (s.part p) v then s else s.modPart p fun q =>
      if v.testBit 0 = true ∧ q.tqctl.testBit 0 = false then { q with tqctl := v % 2 ^ 5, tqprod := 0, tqcons := 0 }
      else { q with tqctl := v % 2 ^ 5 }) ∧
    exec (.tqconsWrite p v) s = .next (if tqconsBad (s.part p) v then s else s.modPart p fun q => { q with tqcons := v % 2 ^ 64 })) ∧
  (∀ (s : State) (c x v : Nat),
    let opened := (s.ctx c x).status = .suspended ∨
      ((s.ctx c x).status = .ready ∧ (s.core c).active = some x ∧ 0 < (s.ctx c x).level)
    exec (.energywWrite c x v) s = .next (if opened then s.modCtx c x fun k => { k with energy := v % 2 ^ 48, ensat := false } else s) ∧
    exec (.gearwWrite c x v) s = .next (if opened then s.modCtx c x fun k => { k with gearReq := v % 4 } else s)) ∧
  (∀ (s : State) (c x v : Nat), exec (.fmtctlWrite c x v) s = .next (if v % 8 ≥ 4 then s else s.modRegs c x fun r =>
    { r with fmtctl := v % 8 + bits v 8 5 * 2 ^ 8 + bits v 16 5 * 2 ^ 16 + bits v 24 4 * 2 ^ 24 })) ∧
  (∀ (s : State) (c x idx v : Nat),
    exec (.registerWrite c x 0x41 idx v) s = .next (s.modCtx c x fun k => { k with stvec := v % 2 ^ 32 }) ∧
    exec (.registerWrite c x 0x42 idx v) s = .next (s.modCtx c x fun k => { k with sepc := v % 2 ^ 32 }) ∧
    exec (.registerWrite c x 0x43 idx v) s =
      .next (s.modCtx c x fun k => { k with sstat := bits v 56 8 * 2 ^ 56 + bits v 5 11 * 2 ^ 5 + v % 2 }) ∧
    exec (.registerWrite c x 0x44 idx v) s = .next (s.modCtx c x fun k => { k with sptgt := v % 2 ^ 32 }) ∧
    exec (.registerWrite c x 0x45 idx v) s = .next (s.modPart (s.partOf c) fun q => { q with tqbase := v % 2 ^ 57 / 64 * 64 }) ∧
    exec (.registerWrite c x 0x49 idx v) s = .next (s.modPart (s.partOf c) fun q => { q with tqstamp := v % 2 ^ 57 }) ∧
    exec (.registerWrite c x 0x4A idx v) s = .next (s.modPart (s.partOf c) fun q => { q with tqdrop := v % 2 ^ 32 }) ∧
    exec (.registerWrite c x 0x4B idx v) s = .next (s.modPart (s.partOf c) fun q => { q with pctl := v % 2 }) ∧
    exec (.registerWrite c x 0x4C idx v) s = .next (s.modCtx c x fun k => { k with ctxsel := v % 2 ^ 11 }) ∧
    exec (.registerWrite c x 0x0C idx v) s = .next (s.modRegs c x fun r => { r with lc := r.lc.set idx (v % 2 ^ 32) }) ∧
    exec (.registerWrite c x 0x1028 idx v) s = .next { s with host := { s.host with facc := s.host.facc.set 0 (v % 2 ^ 6) } } ∧
    (∀ n, n = 1 ∨ n = 2 ∨ n = 3 → exec (.registerWrite c x (0x1028 + 8 * n) idx v) s =
      .next { s with host := { s.host with facc := s.host.facc.set n 0 } }) ∧
    exec (.registerWrite c x 0x1088 idx v) s =
      .next { s with host := { s.host with evbase := v % 2 ^ 64 / 4096 * 4096 } }) ∧
  (∀ (s : State) (c x idx v : Nat),
    let t := selTarget (s.ctx c x).ctxsel
    exec (.registerWrite c x 0x4F idx v) s = .next (if t = (c, x) ∨ openTo s t.1 t.2 = true then
      s.modCtx t.1 t.2 fun k => { k with bkpt := k.bkpt.set idx (BitVec.ofNat 64 (bits v 57 7 * 2 ^ 57 + v % 2 ^ 32)) } else s))

/-! ### Events: accesses, copies, channels -/

/-- A posted access that is due performs at its endpoint: a store and a stamp write their bytes, an atomic replaces its operand and
hands the old value to the transfer that returns it, a monitor takes the dword it watches; an access to peer or shelf memory goes out
over the fabric and waits for its acknowledgement, at which it performs there; one whose translation fails ceases with a deferred cause.
The forms are `POSTED_STORE_PERFORM`, `STAMP_WRITE`, `ATOMIC_PERFORM`, `MONARM_READ_RETURN` and `PEER_ACK` (R82, R91, R92, R98, R160,
R184 to R189, R311, R319).  When each is due is the model's order (log entry 1); the ports before it (log entry 19) and that a stamp of the
own scratchpad may be posted (log entry 66) are the model's readings. -/
def Obligations.AccessesPerform : Prop :=
  (∀ (s u : State) (id : Nat) (a : Async) (bytes : List (Nat × Byte)) (rel : Option Rel) (x : Xl), Pending s id a a.kind →
    a.kind.writes = some (bytes, rel) →
    let lo := lowest bytes
    let pairs := bytes.map fun b => (x.ga + (b.1 - lo), b.2)
    route s a .write lo = .ok x → x.cls ≠ 5 → x.cls ≠ 6 → refused s a.part x = false → endpoint s a x lo true false = .ok u →
    partLines (counted u a lo x) pairs = [] →
    ∃ t, exec (a.kind.event id) s = .next t ∧ t = (writeAt (counted u a lo x) x pairs rel).dropOp id ∧ t.findOp id = none ∧
      (x.mode ≠ 3 → x.mirror = none → ∀ ga, t.byte ga = lastByte pairs (s.byte ga) ga)) ∧
  (∀ (s u : State) (id va op w b cmp : Nat) (a : Async) (ret : List Nat) (rel : Option Rel) (x : Xl),
    Pending s id a (.atom false va op w b cmp ret rel) → route s a .atomic va = .ok x → x.cls ≠ 5 → x.cls ≠ 6 →
    (x.cls = 7 → s.fabric.hostAtomics.testBit (3 * op + w) = true) → refused s a.part x = false →
    endpoint s a x va true true = .ok u →
    let u := counted u a va x
    let n := atomBytes w
    let old := readNat u.mem n x.ga
    let v := match (u.locKnow.find (x.ga / 8 * 8)).filter (·.atom) with | some r => r.parts.foldl (learn a) u | none => u
    let done := writeAt v x (cells x.ga (toBytes n (atomNew op (8 * n) old b cmp))) rel
    u.poisoned (x.ga / 64) = false →
    exec (.atomicPerform id) s = .next ((if ret = [] then done else xferData done a (ret.zip (toBytes n old))).dropOp id)) ∧
  (∀ (s u : State) (id mon va : Nat) (a : Async) (x : Xl), Pending s id a (.monRead mon va) → s.holder a = true →
    ((s.ctx a.core a.ctx).mons.get Monitor.start mon).pendId = some a.id → reach s a .read va = .ok x →
    endpoint s a x va false false = .ok u →
    let u := (counted u a va x).exchange x.ga
    u.poisoned (x.ga / 64) = false →
    ∃ t, exec (.monarmReadReturn id) s = .next t ∧ t.findOp id = none ∧
      ((t.ctx a.core a.ctx).mons.get Monitor.start mon).armed = true ∧
      ((t.ctx a.core a.ctx).mons.get Monitor.start mon).ga = x.ga ∧
      ((t.ctx a.core a.ctx).mons.get Monitor.start mon).value = some (readNat u.mem 8 x.ga)) ∧
  (∀ (s : State) (id d : Nat) (a : Async) (p : Posted) (x : Xl), Pending s id a a.kind → a.posted = some p →
    route s a p.kind p.va = .ok x → p.bar s x = none → x.cls = 5 ∨ x.cls = 6 → destOf x.ga = some d →
    ∃ t, exec (a.kind.event id) s = .next t ∧ t.findOp id =
      some { a with unacked := true, dst := x.ga, mir := x.mirror, page := (x.page, x.size), grants := [] }) ∧
  (∀ (s : State) (id d : Nat) (a : Async), s.findOp id = some a → s.afterDone a = true → a.unacked = true → destOf a.dst = some d →
    s.fabric.unreach.contains d = false → (livePort s d).isSome = true →
    (a.posted = none → exec (.peerAck id) s = .next ((s.dropOp id).heard d)) ∧
    ∀ p, a.posted = some p →
      let x : Xl := { ga := a.dst, cls := if p.va ≥ shelfBase then 5 else 6, mirror := a.mir }
      refused s a.part x = false → exec (.peerAck id) s = .next ((p.effect s x).heard d)) ∧
  (∀ (s : State) (id : Nat) (a : Async) (p : Posted) (f : XFail), Pending s id a a.kind → a.posted = some p →
    route s a p.kind p.va = .bad f →
    exec (a.kind.event id) s = .next (failOp (noteMiss s a p.kind p.va f) a (xfailCause f p.va))) ∧
  (∀ (s : State) (id : Nat) (a : Async) (bytes : List (Nat × Byte)) (r : Rel), Pending s id a (.ownStamp bytes r) →
    ownSegment s a a.core = none → partLines s bytes = [] →
    ∃ t, exec (.stampWrite id) s = .next t ∧ t.findOp id = none ∧ ∀ ga, t.byte ga = lastByte bytes (s.byte ga) ga)

/-- An arrival goes to the first core of its target set that waits for it, and counts there, at its barrier alone, with the knowledge its
release carries: for the phase in progress and for the next one, each phase completing whose count has reached EXP; one for any other
phase, or beyond EXP, breaks the barrier (R89, R103).  One from another module goes to the cores of its launch group's task (R150), of
which the detector learns nothing, by the model's choice (log entry 34); the order of delivery down the list is its choice too (log entry
1). -/
def Obligations.ArrivalDelivered : Prop :=
  (∀ (s : State) (id bar ph d : Nat) (rest : List Nat) (a : Async) (r : Rel) (st : Option (Nat × Nat × Rel)),
    Pending s id a (.arrive bar ph (d :: rest) r st) → arrivalTurn s a d = true →
    exec (.barrierArrival id) s = .next (
      if rest.isEmpty && st.isNone then (deliver s d bar ph r).dropOp a.id
      else (deliver s d bar ph r).setOp { a with kind := .arrive bar ph rest r st })) ∧
  (∀ (s : State) (d bar ph : Nat) (r : Rel),
    let t := deliver s d bar ph r
    let b := (s.core d).bars.get Barrier.start bar
    (t.core d).bars.get Barrier.start bar =
      { b.arrive ph with kv := if r.scope ≥ scopeOf r.core d then mergeVec (withinScope r.scope r.vec) b.kv else b.kv } ∧
    (∀ n, n ≠ bar → (t.core d).bars.get Barrier.start n = (s.core d).bars.get Barrier.start n) ∧
    t.core d = { s.core d with bars := (t.core d).bars } ∧ (∀ c, c ≠ d → t.core c = s.core c) ∧
    t = { s with cores := t.cores } ∧ ∀ ga, t.byte ga = s.byte ga) ∧
  (∀ (s : State) (id group bar ph : Nat) (a : Async) (t : Task), Pending s id a (.signal 0 group bar ph) →
    groupTask s a.part group = some t →
    exec (.barrierArrival id) s =
      .next (s.setOp { a with kind := .arrive bar ph (t.parts.map (·.core)).eraseDups Rel.far none })) ∧
  (∀ b : Barrier, b.brk = false → b.exp ≠ 0 → b.cnt0 + 1 < b.exp →
    b.arrive b.passed = { b with cnt0 := b.cnt0 + 1 }) ∧
  (∀ b : Barrier, b.brk = false → b.exp ≠ 0 → b.cnt0 + 1 = b.exp → b.cnt1 < b.exp →
    b.arrive b.passed = { b with passed := (b.passed + 1) % 2 ^ 32, cnt0 := b.cnt1, cnt1 := 0 }) ∧
  (∀ b : Barrier, b.brk = false → b.exp ≠ 0 → b.cnt0 + 1 = b.exp → b.cnt1 = b.exp →
    b.arrive b.passed = { b with passed := (b.passed + 2) % 2 ^ 32, cnt0 := 0, cnt1 := 0 }) ∧
  (∀ b : Barrier, b.brk = false → b.exp ≠ 0 → b.cnt0 < b.exp →
    (b.cnt1 < b.exp → b.arrive ((b.passed + 1) % 2 ^ 32) = { b with cnt1 := b.cnt1 + 1 }) ∧
    (b.cnt1 = b.exp → b.arrive ((b.passed + 1) % 2 ^ 32) = { b with brk := true })) ∧
  (∀ (b : Barrier) (n : Nat), n ≠ b.passed → n ≠ (b.passed + 1) % 2 ^ 32 → (b.arrive n).brk = true) ∧
  (∀ (b : Barrier) (n : Nat), b.exp = 0 → (b.arrive n).brk = true)

/-- Copies: the next destination granule's data arrive and are written or handed to the transfer: the bytes that each element's source
holds, at the element's destination, and no other byte changes; a transfer's granule takes them, and is written at once when its cycle
has passed; a copy all of whose writes have performed makes what its completion word asks for: its arrival at the cores of its target
set, one to each peer module of the set, then its stamp; a multicast's tile reaches each receiving core; a copy on the Kloty slow path
posts its page request and follows the reply (R26, R83, R168, R172, R173, R175, R286).  How much one event moves is the model's choice
(log entry 7); its ports (log entry 19), what aborts a copy (log entry 38) and that an entry which cannot be written is held (log entry
55) are the model's readings. -/
def Obligations.CopyEvents : Prop :=
  (∀ (s : State) (a : Async) (e : Elem),
    (e.src = none → elemBytes s a e = .ok (s, e.data)) ∧
    (∀ v gas, e.src = some v → a.core < 512 → inScratch v e.len = true → scratchGas true (s.zmapOf a) a.core e.len v = some gas →
      s.poison = [] → elemBytes s a e = .ok (s, gas.map s.byte)) ∧
    (∀ v x u, e.src = some v → ¬(a.core < 512 ∧ inScratch v e.len = true) → reach s a .read v = .ok x →
      endpoint s a x v false false = .ok u → u.poisoned (x.ga / 64) = false →
      ∃ t, elemBytes s a e = .ok (t, (List.range e.len).map fun n => s.byte (x.ga + n)) ∧
        (e.first = false ∨ x.mode ≠ 3 → t.mem = s.mem))) ∧
  (∀ (s u : State) (a : Async) (es : List Elem) (l : List (Nat × List Byte)), readGroup a s es = .ok (u, l) →
    l.map (·.1) = es.map (·.dst) ∧ ∀ p ∈ es.zip l, ∃ s1 s2, elemBytes s1 a p.1 = .ok (s2, p.2.2)) ∧
  (∀ (s u v : State) (id base : Nat) (a : Async) (elems : List Elem) (started : Bool) (cw : CWord) (w : Slow) (x : Xl)
      (l : List (Nat × List Byte)),
    Pending s id a (.copy elems false cw w started) → elems ≠ [] → w.free = true → (started || copyTurn s a) = true →
    crossing s a elems = false → inTheWay s a elems = none →
    let q := nextChunks (sameDst s a false) elems
    let bytes := l.flatMap fun p => cells p.1 p.2
    let pairs := bytes.map fun b => (x.ga + (b.1 - 64 * base), b.2)
    readGroup a s q.1 = .ok (u, l) → (∀ e ∈ q.1, e.dst / 64 = base) → bytes ≠ [] → (∀ b ∈ bytes, b.1 / 64 = base) →
    reach u a .write (64 * base) = .ok x → endpoint u a x (64 * base) true false = .ok v → partLines v pairs = [] →
    x.mode ≠ 3 → x.mirror = none →
    ∃ t : State, exec (.transferDataArrival id) s =
        .next (t.setOp { a with kind := .copy (q.2.map (fixChunk u a q.1)) false cw w true }) ∧
      ∀ ga, t.byte ga = lastByte pairs (u.byte ga) ga) ∧
  (∀ (s u : State) (id : Nat) (a : Async) (elems : List Elem) (started : Bool) (cw : CWord) (w : Slow) (l : List (Nat × List Byte)),
    Pending s id a (.copy elems true cw w started) → elems ≠ [] → w.free = true → (started || copyTurn s a) = true →
    let q := nextChunks (sameDst s a true) elems
    let pairs := l.flatMap fun p => ((scratchGas true (s.zmapOf a) a.core p.2.length p.1).getD []).zip p.2
    skidFull s a ((q.1.map (·.len)).sum) = false → readGroup a s q.1 = .ok (u, l) →
    exec (.transferDataArrival id) s =
      .next ((xferData u a pairs).setOp { a with kind := .copy (q.2.map (fixChunk u a q.1)) true cw w true })) ∧
  (∀ (s : State) (a : Async) (pairs : List (Nat × Byte)), s.holder a = true →
    let r := (s.ctx a.core a.ctx).regs
    let t := xferData s a pairs
    ((∀ y ∈ r.xfers, r.ltime < y.due) → ∀ y ∈ r.xfers, y.id = a.id → ∀ g ∈ y.grans, (pairs.any fun b => b.1 / 64 == g.base) = true →
      t.mem = s.mem ∧ ∃ y' ∈ (t.ctx a.core a.ctx).regs.xfers, y'.id = y.id ∧ ∃ g' ∈ y'.grans, g'.base = g.base ∧ g'.left = 0 ∧
        ∀ ga, ga / 64 = g.base → BitVec.ofNat 8 (g'.data.get 0 ga) = lastByte pairs (BitVec.ofNat 8 (g.data.get 0 ga)) ga) ∧
    ∀ y g, r.xfers = [y] → y.id = a.id → y.due ≤ r.ltime → y.dead = false → y.grans = [g] → g.written = false →
      (s.ctx a.core a.ctx).seg = none → s.poison = [] → pairs ≠ [] → (∀ b ∈ pairs, b.1 / 64 = g.base) →
      ∀ ga, t.byte ga = if ga ∈ g.cover then lastByte pairs (BitVec.ofNat 8 (g.data.get 0 ga)) ga else s.byte ga) ∧
  (∀ (s : State) (a : Async) (cw : CWord),
    let peers := taskPeers s a.part (lgroupOf s a.task) cw.tset
    let go := fun (cores : List Nat) (r : Rel) (st : Option (Nat × Nat × Rel)) =>
      s.setOp { a with after := cw.wait, kind := .arrive cw.bar cw.phase cores r st }
    let stamp := if cw.st = true then cw.sr.map (fun r => (cw.saddr, cw.val, r)) else none
    (finish s a cw).mem = s.mem ∧
    (cw.ba = false → cw.st = false → finish s a cw = s.dropOp a.id) ∧
    (∀ r, cw.ba = false → cw.st = true → cw.sr = some r → finish s a cw = go [] r stamp) ∧
    (∀ r, cw.ba = true → cw.ar = some r → peers = [] → finish s a cw = go (targetCores s a.core a.task cw.tset 0) r stamp) ∧
    (cw.ba = true → a.id < s.nextId → ∀ p ∈ peers, ∃ b ∈ (finish s a cw).ops, b.core = a.core ∧ b.ctx = a.ctx ∧
      b.kind = .signal p (lgroupOf s a.task) cw.bar cw.phase)) ∧
  (∀ (s u : State) (id : Nat) (a : Async) (elems : List Elem) (sched started : Bool) (cw : CWord) (w : Slow),
    Pending s id a (.copy elems sched cw w started) →
    (elems ≠ [] → w.free = true → (started || copyTurn s a) = true → moveCopy s a elems sched cw w = some u →
      exec (.transferDataArrival id) s = .next u) ∧
    (elems = [] → (started || copyTurn s a) = true → xferDone s a = true →
      exec (.copyComplete id) s = .next (finish s a cw)) ∧
    (w.stage = 1 → pageRequest s a w (fun w => .copy elems sched cw w started) = some u →
      exec (.slowPathHandoff id) s = .next u) ∧
    (w.stage = 2 → (s.part a.part).ringHeld.contains (requestBytes a w) = false →
      waitsIn s a.part (s.part a.part).cfg.control w.reply 8 = false → lostCause s (s.part a.part).cfg.control 1 .read w.reply = none →
      readVa a s (s.part a.part).cfg.control 1 w.reply 8 = (u, some 1) →
      exec (.pageRequestReply id) s = .next (u.setOp { a with kind := .copy elems sched cw { w with stage := 3 } started })) ∧
    (w.stage = 2 → (s.part a.part).ringHeld.contains (requestBytes a w) = false →
      waitsIn s a.part (s.part a.part).cfg.control w.reply 8 = false → lostCause s (s.part a.part).cfg.control 1 .read w.reply = none →
      readVa a s (s.part a.part).cfg.control 1 w.reply 8 = (u, some 2) →
      exec (.pageRequestReply id) s = .next (failOp u a { code := 0x32, addr := w.va }))) ∧
  (∀ (s u : State) (id src dst n : Nat) (a : Async) (left : List Nat) (cw : CWord) (w : Slow) (bytes : List Byte),
    Pending s id a (.mcast src dst n left none cw w) → w.free = true → copyTurn s a = true →
    readTile a s src (n / 64) = .ok (u, bytes) →
    exec (.transferDataArrival id) s = .next (u.setOp { a with kind := .mcast src dst n left (some bytes) cw w })) ∧
  (∀ (s : State) (id src dst n core : Nat) (a : Async) (left : List Nat) (cw : CWord) (w : Slow) (bytes : List Byte),
    Pending s id a (.mcast src dst n left (some bytes) cw w) → left.contains core = true → cw.ba = false →
    left.filter (· != core) ≠ [] → s.poison = [] →
    ownSegment s a core = none →
    ∃ t, exec (.mcastDelivery id core) s = .next t ∧
      (t.findOp id).map (·.kind) = some (.mcast src dst n (left.filter (· != core)) (some bytes) cw w) ∧
      ∀ ga, t.byte ga = lastByte (((scratchGas true (s.zmapOf a) core n dst).getD []).zip bytes) (s.byte ga) ga)

/-- A beat reaches the queue of the context that holds its part, waits where the part's image is out, and leaves its credit where the
part has ended; a credit returns to the sender that still holds its part; `SHALLOC` and `SHFREE` answer with their status (R44, R176,
R190, R271, R297).  The order of the tests of `SHALLOC` (log entry 42) and that a beat waits for a part which has not started (log entry
44) are the model's readings. -/
def Obligations.ChannelEvents : Prop :=
  (∀ (s : State) (id : Nat) (a : Async) (bind : SendBind) (b : Beat) (t : TaskPart), Pending s id a (.beat bind b false) →
    a.fromFar = false → bind.peer = 0 → partPlace s a.part bind.group bind.rank = some t →
    (t.state = 1 → (s.ctx t.core t.ctx).busy = false → exec (.beatArrival id) s = .next ((s.modCtx t.core t.ctx fun k =>
      { k with queues := k.queues.set bind.dch (k.queues.get [] bind.dch ++ [b]) }).dropOp a.id)) ∧
    (t.state = 2 → exec (.beatArrival id) s = .next (s.setOp { a with kind := .beat bind b true })) ∧
    (t.state ≥ 3 → exec (.beatArrival id) s = .next (returnCredits (s.dropOp a.id) a.core a.ctx [b]))) ∧
  (∀ (s : State) (id : Nat) (a : Async) (bind : SendBind) (b : Beat) (t : TaskPart), Pending s id a (.beat bind b true) →
    a.fromFar = false → partPlace s a.part bind.group bind.rank = some t → t.state = 1 → (s.ctx t.core t.ctx).busy = false →
    exec (.beatReoffer id) s = .next ((s.modCtx t.core t.ctx fun k =>
      { k with queues := k.queues.set bind.dch (k.queues.get [] bind.dch ++ [b]) }).dropOp a.id)) ∧
  (∀ (s : State) (id c x ch n task : Nat) (a : Async), Pending s id a (.credit c x ch n task) → c < 2 ^ 20 →
    (s.tasks.any fun t => t.id == task && t.parts.any fun p => p.core == c && p.ctx == x && p.state == 2) = false →
    (s.ctx c x).holds = true → (s.ctx c x).info.task = task →
    exec (.creditReturn id) s = .next ((s.modCtx c x fun k =>
      { k with outBeats := k.outBeats.put 0 ch (k.outBeats.get 0 ch - n) }).dropOp a.id)) ∧
  (∀ (s : State) (id size va : Nat) (mir : Bool) (ret : List Nat) (a : Async),
    (Pending s id a (.shalloc size mir ret) → exec (.shallocReply id) s =
      .next (shelfResult (shalloc s a.part size mir).1 a ret (shalloc s a.part size mir).2.1 (shalloc s a.part size mir).2.2)) ∧
    (Pending s id a (.shfree va ret) → (s.part a.part).shelf.find? (fun e => e.base == va) = none →
      exec (.shfreeReply id) s = .next (shelfResult s a ret 5 0)) ∧
    (∀ e, Pending s id a (.shfree va ret) → (s.part a.part).shelf.find? (fun e => e.base == va) = some e →
      ∃ u, exec (.shfreeReply id) s = .next (shelfResult u a ret (if e.state = 2 then 6 else 0) 0) ∧
        (u.part a.part).shelf = (s.part a.part).shelf.filter fun f => f.base != va)) ∧
  ∀ (s : State) (p size : Nat) (mir : Bool), size = 0 ∨ size % 2 ^ 21 ≠ 0 → shalloc s p size mir = (s, 4, 0)

/-! ### Events: near memory, collectives -/

/-- Near-memory commands are taken by their stack and complete as a whole: each element is computed once by its command's rule, REDUCE by
groups of 16 from +0, no other byte changes but the status at STAT, where that is not 0; a fence is answered where none of its
commands is left at the stack; a collective registers, combines its contributions along the chain or in a switch, falls back, and
has its chunk written and acknowledged (R96, R180, R181, R193, R320 to R323).  When a command's ranges are checked (log entry 41) and
which descriptor leads a collective (log entry 48) are the model's readings; what becomes of a status that meets a busy range or a race
is its choice (log entry 82). -/
def Obligations.NearMemoryAndCollectiveEvents : Prop :=
  (∀ (s : State) (id n : Nat) (a : Async) (d : NmDesc) (cw : CWord), Pending s id a (.nmcmd d cw (some n) none) →
    s.holder a = false → nmPaused s a d = false → (s.hbmStacks.get Stack.reset n).paused = false →
    (s.hbmStacks.get Stack.reset n).queue = [] → (busyCmds (s.hbmStacks.get Stack.reset n)).length < 64 →
    (∀ dt st, nmRanges s a d = .ok (dt, st) → ∃ t, exec (.nmcmdAccept id) s = .next t ∧
      (t.findOp id).map (·.kind) = some (.nmcmd d cw (some n) (some ⟨0, dt, st⟩)) ∧ t.mem = s.mem ∧ t.cores = s.cores ∧
      ∀ r ∈ dt, ∀ ga, r.ga ≤ ga → ga < r.ga + r.len → stackOf (64 * (ga / 64)) = some n → nmBusy t (ga / 64) = true) ∧
    ∀ e, nmRanges s a d = .error e → ∃ t, exec (.nmcmdAccept id) s = .next t ∧
      (t.findOp id).map (·.kind) = some (.nmcmd d cw (some n) (some ⟨e.status, [], []⟩)) ∧
      (e.fail = none → t.mem = s.mem ∧ t.cores = s.cores)) ∧
  (∀ (s : State) (id n : Nat) (a : Async) (d : NmDesc) (cw : CWord) (w : NmPlace), Pending s id a (.nmcmd d cw (some n) (some w)) →
    (s.hbmStacks.get Stack.reset n).paused = false →
    (d.stat = 0 ∨ (a.core < 512 ∧ inScratch d.stat 8 = true) ∨ reach s a .write d.stat ≠ .wait) →
    exec (.nmcmdComplete id) s = .next (nmComplete s a d cw w)) ∧
  (∀ (s : State) (a : Async) (d : NmDesc) (cw : CWord) (dt st : List Stretch), d.op ≤ 4 →
    s.poison = [] → nmCount a s [] (dt ++ st) = s →
    ((dt ++ st).all fun t => !((pagedXl s a.part a.core t.va).toOption.any (·.chk))) = true →
    let x := fun (i : Nat) => readNat s.mem d.size (gaIn dt (d.dst + d.size * i))
    let y := fun (i : Nat) => readNat s.mem d.size (gaIn st (d.src + d.size * i))
    let v := decodeVal d.fmt
    let α := decodeVal 10 d.alpha
    let bytes :=
      if d.op = 4 then cells (gaIn dt d.dst) (toBytes 4 ((List.range ((d.count + 15) / 16)).foldl (fun acc k =>
        (sumRound 10 ⟨0, 0⟩ (decodeVal 10 acc :: (((List.range d.count).drop (16 * k)).take 16).map fun i => v (y i))).1) 0))
      else (List.range d.count).flatMap fun i => cells (gaIn dt (d.dst + d.size * i)) (toBytes d.size (match d.op with
        | 0 => (sumRound d.fmt ⟨0, 0⟩ [(mulVal α (v (x i))).1, (mulVal (decodeVal 10 d.beta) (v (y i))).1]).1
        | 1 => (roundVal d.fmt ⟨0, 0⟩ (mulVal α (v (x i))).1).1
        | 2 => (roundVal d.fmt ⟨0, 0⟩ α).1
        | _ => y i))
    nmComplete s a d cw ⟨0, dt, st⟩ = nmFinish (s.store bytes none) a d cw 0 ∧
      ∀ ga, (s.store bytes none).byte ga = lastByte bytes (s.byte ga) ga) ∧
  (∀ (s : State) (a : Async) (d : NmDesc) (cw : CWord) (w : NmPlace), w.status ≠ 0 →
    nmComplete s a d cw w = nmFinish s a d cw (w.status * 2 ^ 60)) ∧
  (∀ (s : State) (a : Async) (d : NmDesc) (cw : CWord) (status : Nat),
    (d.stat = 0 → (nmFinish s a d cw status).mem = s.mem) ∧
    (∀ gas, d.stat ≠ 0 → a.core < 512 → inScratch d.stat 8 = true → scratchGas true (s.zmapOf a) a.core 8 d.stat = some gas →
      partLines s (gas.zip (toBytes 8 status)) = [] →
      ∀ ga, (nmFinish s a d cw status).byte ga = lastByte (gas.zip (toBytes 8 status)) (s.byte ga) ga) ∧
    (∀ (x : Xl) (w : State), d.stat ≠ 0 → inScratch d.stat 8 = false → reach s a .write d.stat = .ok x →
      endpoint s a x d.stat true false = .ok w → partLines w (cells x.ga (toBytes 8 status)) = [] → x.mode ≠ 3 → x.mirror = none →
      ∀ ga, (nmFinish s a d cw status).byte ga = lastByte (cells x.ga (toBytes 8 status)) (s.byte ga) ga)) ∧
  (∀ (s : State) (id stack : Nat) (a : Async) (hbmStacks cmds : List Nat), Pending s id a (.nmfence hbmStacks cmds) →
    hbmStacks.contains stack = true → (∀ c ∈ cmds, cmdAt s c stack = false) →
    ∃ t, exec (.nmfenceAnswer id stack) s = .next t ∧ t.mem = s.mem ∧
      (t.hbmStacks.get Stack.reset stack).busy = (s.hbmStacks.get Stack.reset stack).busy.filter (fun b => !cmds.contains b.1) ∧
      (hbmStacks.filter (· != stack) = [] → t.findOp id = none)) ∧
  (∀ (s : State) (id : Nat) (a : Async) (d : CollDesc) (cw : CWord) (w : Slow) (own : Option (List Byte)),
    Pending s id a (.coll d cw w own) → registered s id = false → collTurn s a d.group = true →
    let l := lgroupOf s a.task
    let u := ((taskPeers s a.part l 4).filterMap ((s.part a.part).cfg.dest 1)).foldl State.sendOn s
    exec (.collRegistration id) s =
      .next (joinColl u a.part (if l = 0 then a.task else 0) l d.group ⟨d, some id, a.core, a.ctx, 0, []⟩)) ∧
  (∀ (s : State) (id : Nat) (c : Coll) (d : CollDesc), s.coll id = some c → c.started = true → c.clear s = true →
    (c.here s).all (granted s) = true → c.desc = some d → c.staged ≠ [] →
    let moved := fun (u : State) => Host.Outcome.next (u.spend (c.here s))
    let ranks := c.ordered d
    (d.op ≤ 1 → c.viaSwitch = false ∨ c.fell = true → c.hop < d.nrank → exec (.chainPartialArrival id) s = moved (
      if c.hop = 0 then s.setColl { c with hop := 1, partial_ := c.staged.headD [] }
      else (hop s c.partial_.length ranks[c.hop - 1]? ranks[c.hop]?).setColl
        { c with hop := c.hop + 1, partial_ := redBytes d c.partial_ (c.staged.getD c.hop []) })) ∧
    (d.op ≤ 1 → c.viaSwitch = true → c.fell = false → c.hop < d.nrank → exec (.switchResult id) s = moved ((hopSwitch s c (c.sends d)).setColl
      { c with hop := d.nrank, partial_ := (c.staged.drop 1).foldl (redBytes d) (c.staged.headD []) })) ∧
    (c.viaSwitch = true → c.fell = false → c.hop < d.nrank →
      exec (.fallback id) s = moved ((match c.switchDest s with | some e => (s.exchangeTo e (c.sends d)).heard e | none => s).setColl
        { c with fell := true, hop := 0, partial_ := [] })) ∧
    (∀ u, d.op > 1 ∨ c.hop ≥ d.nrank → writeRanks c d s (c.ordered d) = .ok u →
      let n := (c.staged.getD (if d.op = 3 then d.root else 0) []).length / d.size
      exec (.chunkAcknowledged id) s = moved (
        if c.chunk + n ≥ d.count then finishColl (sendResults c d u) c
        else (sendResults c d u).setColl { c with chunk := c.chunk + n, staged := [], hop := 0, partial_ := [], fell := false })))

/-! ### Events: launches, images, translation, partitions -/

/-- The intake serves its head, one descriptor at a time: it refuses a launch with its REASON, or enters its parts in every chosen core's
queue in one step, for which it waits, and where a bind run has begun or ended meanwhile places it anew; a part starts in a core's lowest
empty context; a task whose parts have all ended completes (R301 to R307).  The REASON of a failed negotiation and the place of a refused
launch in a trace are the model's readings (log entry 46); when a trace's records are read is its choice (log entry 78). -/
def Obligations.LaunchEvents : Prop :=
  (∀ (s s1 s2 : State) (p key : Nat) (e : IntakeE) (x : Xl) (b : List Byte), (s.part p).serving = none → traceHeld s p = false →
    intakeHead (s.part p) = some (key, e) → reach s (e.op s) .write e.desc = .ok x →
    spanBytes (e.op s) .read e.desc 128 s = some (s1, some b) →
    (∀ r, launchChecks p e (descOf b) s1 = some (s2, .error r) →
      exec (.intakeStep p) s = .next (refuseLaunch s2 p key e (descOf b) r)) ∧
    (∀ k ch cores, launchChecks p e (descOf b) s1 = some (s2, .ok (k, ch, cores)) →
      exec (.intakeStep p) s = .next (
        if ∃ c ∈ cores, 32 ≤ (s2.core c).lq.length then
          s2.modPart p fun q => { q with serving := some ⟨key, e, descOf b, k, ch, cores, q.trace.bindRun⟩ }
        else acceptLaunch s2 p key e (descOf b) k ch cores))) ∧
  (∀ (s : State) (p : Nat) (v : Serving), (s.part p).serving = some v →
    let now := (s.part p).trace.bindRun
    (v.bind = now → (s.part p).tracePend = [] → (∃ c ∈ v.cores, 32 ≤ (s.core c).lq.length) → exec (.intakeStep p) s = .next s) ∧
    (traceHeld s p = false → statusWaits s v.entry = false →
      (v.bind = now → (∀ c ∈ v.cores, (s.core c).lq.length < 32) →
        exec (.intakeStep p) s = .next (acceptLaunch s p v.key v.entry v.desc v.kernel v.chans v.cores)) ∧
      (∀ u r, v.bind ≠ now → placement (v.entry.op s) s p v.desc v.entry.pri = (u, .error r) →
        exec (.intakeStep p) s = .next (refuseLaunch u p v.key v.entry v.desc r)) ∧
      (∀ u cores, v.bind ≠ now → placement (v.entry.op s) s p v.desc v.entry.pri = (u, .ok cores) → (∀ c ∈ cores, (u.core c).lq.length < 32) →
        exec (.intakeStep p) s = .next (acceptLaunch u p v.key v.entry v.desc v.kernel v.chans cores)))) ∧
  (∀ (s : State) (p : Nat) (e : IntakeE) (d : Desc), d.bad = true → launchChecks p e d s = some (s, .error 3)) ∧
  (∀ (s : State) (c x : Nat) (e : LqEntry) (t : Task), nextEntry s c = some e → taskCtx s c = some x →
    s.tasks.find? (fun t => t.id == e.task) = some t → traceAllows (s.part t.part).trace c e = true → (s.core c).halted = false →
    startsHeld s = false → traceHeld s t.part = false → (t.state = 1 → statusWaits s t.launch = false) →
    exec (.partStart c) s = .next (startPart s c x e t)) ∧
  (∀ (s : State) (c x rank : Nat) (t : Task), let k := startCtx (s.ctx c x) t rank
    k.regs.ltime = 0 ∧ k.regs.pc = 0 ∧ k.gearReq = t.gear ∧ k.regs.rg 1 = BitVec.ofNat 64 t.args ∧
    k.regs.rg 2 = BitVec.ofNat 64 (rank % t.nc) ∧ k.regs.rg 3 = BitVec.ofNat 64 (rank / t.nc) ∧
    k.regs.rg 4 = BitVec.ofNat 64 t.nc ∧ k.regs.rg 5 = BitVec.ofNat 64 t.nd ∧ ∀ r, r = 0 ∨ 6 ≤ r → k.regs.rg r = 0) ∧
  (∀ (s : State) (id : Nat) (t : Task), s.tasks.find? (fun t => t.id == id) = some t → t.state < 3 →
    (∀ p ∈ t.parts, 3 ≤ p.state) → statusWaits s t.launch = false →
    let aborted := t.parts.any fun p => p.state == 4
    (aborted = true ∨ opsLeft s id = false) →
    let state := if t.failed || aborted then 5 else 3
    exec (.taskComplete id) s =
      .next (postDone (statusWrite ((closeTask s { t with state := state }).modPart t.part (Part.over t.group)) t.launch state 0 t.seq)
        t.launch t.done))

/-- A save whose context is quiet writes its image, keeps it and empties the context; one that cannot go on is abandoned with SAVESTAT 4,
one of a core outside the partition is refused with 2; a load writes its LOADSTAT, and where every check passes the context holds the
image's registers, with what the supervisor changed in the header (R267 to R273).  What a save waits for (log entry 45) and the order of
the checks (log entry 30) are the model's readings; the image's body is its choice (log entry 14). -/
def Obligations.ImageEvents : Prop :=
  (∀ (s u : State) (id tc tx va : Nat) (core : Bool) (was : List Nat) (cw : CWord) (a : Async),
    Pending s id a (.save core tc tx va was cw) → (s.part a.part).cfg.cores.contains tc = true →
    let ks := [0, 1, 2, 3].map (s.ctx tc)
    (((imgContexts core tx).all (quiet s tc)) = true →
      imgReach a .write (pageCuts va (if core then coreLen ks else ctxLen (s.ctx tc tx))) s = .ok u →
      exec (.saveComplete id) s = .next (saveDone u a core tc tx va was cw)) ∧
    (((imgContexts core tx).all (quiet s tc)) = false → imgReach a .write [(va, 64)] s = .ok u →
      ∃ h : Header, h.save = 4 ∧ h.len = 64 ∧
        exec (.saveAbandon id) s =
          .next (finish (chargeImage (clearBusyBits (imgWrite a u 1 va h.bytes) tc (imgContexts core tx)) a 64) a cw))) ∧
  (∀ (s u : State) (id tc tx va : Nat) (core : Bool) (was : List Nat) (cw : CWord) (a : Async),
    Pending s id a (.save core tc tx va was cw) → (s.part a.part).cfg.cores.contains tc = false →
    imgReach a .write (pageCuts va 64) s = .ok u →
    ∃ h : Header, h.save = 2 ∧ h.len = 64 ∧ exec (.saveComplete id) s =
      .next (finish (chargeImage (imgWrite a u 1 va h.bytes) a 64) a cw)) ∧
  (∀ (s s1 u : State) (id tc tx va n : Nat) (core : Bool) (cw : CWord) (a : Async) (x : Xl), Pending s id a (.load core tc tx va cw) →
    (tc < 512 → startsHeld s = false) →
    imgReach a .read [(va, 64)] s = .ok s1 → reach s1 a .write va = .ok x →
    imgReach a .read (pageCuts (va + 64) ((imgHeader s a va).len - 64)) s1 = .ok u →
    let w := if (s.part a.part).cfg.cores.contains tc then clearBusyBits u tc (imgContexts core tx) else u
    let len := (imgHeader u a va).len
    (loadStat u a core tc tx va = (n, none) → exec (.loadComplete id) s =
      .next (finish (sideWrite (chargeImage w a (if n = 6 then 64 else len)) a (va + 0x38) (toBytes 8 n)) a cw)) ∧
    ∀ im, loadStat u a core tc tx va = (n, some im) → exec (.loadComplete id) s =
      .next (finish (sideWrite (chargeImage (loadDone w a core tc tx va im) a len) a (va + 0x38) (toBytes 8 n)) a cw)) ∧
  (∀ (s : State) (a : Async) (core : Bool) (tc tx va : Nat) (was : List Nat) (cw : CWord),
    let t := saveDone s a core tc tx va was cw
    (∀ x ∈ imgContexts core tx, (t.ctx tc x).status = .empty) ∧
    (core = true ∨ (s.ctx tc tx).status ≠ .empty → Config.saveError s.tick = true ∨ ∃ im rest, t.images = im :: rest ∧
      im.part = a.part ∧ im.core = tc ∧ im.ctx = (if core then none else some tx) ∧
      ∀ x ∈ imgContexts core tx, im.ctxs.get Ctx.reset x = imageCtx (s.ctx tc x) (was.getD x 0) ∧
        (im.ctxs.get Ctx.reset x).regs = (s.ctx tc x).regs)) ∧
  (∀ (s : State) (a : Async) (core : Bool) (tc tx va x : Nat) (im : Image), x ∈ imgContexts core tx →
    let k := im.ctxs.get Ctx.reset x
    let q := (loadDone s a core tc tx va im).ctx tc x
    k.status ≠ .empty → ∃ h : Header, (core = false → h = imgHeader s a va) ∧
      q.regs = { (withHeader k h).regs with vjoins := q.regs.vjoins } ∧
      (withHeader k h).regs = { k.regs with pc := h.pc, rep := h.rep % 16, pend := (withHeader k h).regs.pend } ∧
      q.status = (match k.status with | .suspended => .suspended | .frozen => .frozen | _ => .ready) ∧ q.info = k.info ∧ q.mons = k.mons ∧
      q.gearReq = h.gear % 4) ∧
  (∀ (k : Ctx) (h : Header), h.pc = k.regs.pc → h.rep % 16 = k.regs.rep →
    (∀ p, k.regs.pend = some p → p.left = h.dly % 4 ∧ (0 < p.left ∨ k.ends = true)) → (withHeader k h).regs = k.regs) ∧
  (∀ (s : State) (a : Async) (core : Bool) (tc tx va n : Nat) (im : Image), loadStat s a core tc tx va = (n, some im) →
    n = 0 ∧ im ∈ s.images ∧ im.core = tc) ∧
  ∀ (s : State) (a : Async) (core : Bool) (tc tx va : Nat), (s.part a.part).cfg.cores.contains tc = false →
    loadStat s a core tc tx va = (6, none)

/-- A walk that succeeds fills the TLBs; a count that has reached its threshold goes to its counter word; `TLBINV` drops the entries it
names from every core and cluster TLB and no other, where none of them has a count to add and nothing waits to be posted, for what is
posted then may load an entry anew; a slot grant gives the request it is for its port, and with the last one the transfer unit moves; a
waiting slot table takes force; a partition is created in its configuration's limits, its supervisor ready to run, and changed once its
cores are empty; a lost shelf switch reaches every partition: its plain allocations are lost, its mirrored ones degraded, or lost with
both switches (R19, R280 to R292, R298, R299, R318).  That a transfer unit moves with the last of its ports' grants (log entry 19), routes
that come with a configuration (log entry 43) and when a partition's core counts as empty (log entry 47) are the model's readings; where
Kloty maps the control block (log entry 5) and what waits for a stack (log entry 80) its choices. -/
def Obligations.TranslationAndPartitionEvents : Prop :=
  (∀ (s : State) (c va : Nat) (x : Xl), va < shelfBase + 2 ^ 40 → inWindow va = false → walkPaused s (s.partOf c) c va = false →
    pagedXl s (s.partOf c) c va = .ok x → (∀ a ∈ s.ops, a.kind ≠ .walk va) → findTlb (s.partOf c) va (s.core c).tlb = none →
    let e := x.tlb (s.partOf c) va
    let u := fillCore s c e
    findTlb (s.partOf c) va (u.cluTlb.get [] (cluOf c)) = none →
    exec (.tableWalk c va) s = .next (fillClu u (cluOf c) e)) ∧
  (∀ (s : State) (c va : Nat) (f : XFail), va < shelfBase + 2 ^ 40 → inWindow va = false → walkPaused s (s.partOf c) c va = false →
    pagedXl s (s.partOf c) c va = .error f → (∀ a ∈ s.ops, a.kind ≠ .walk va) →
    exec (.tableWalk c va) s = .next (noteFail s c f)) ∧
  (∀ (s : State) (c va : Nat) (e : TlbE),
    let hit := fun (e : TlbE) => e.part == s.partOf c && decide (e.va ≤ va ∧ va < e.va + e.size) && overCount e
    (s.core c).tlb.find? hit = some e → stackPaused s e.counter = false → exec (.counterAdd c va) s =
      .next ((addCounter s c e).modCore c fun k => { k with tlb := k.tlb.map fun f => if hit f then { f with count := 0 } else f })) ∧
  (∀ (s : State) (id kind va : Nat) (cw : CWord) (a : Async), Pending s id a (.tlbinv kind va cw) → kind ≠ 2 →
    onItsWay s a.part kind va = false → tlbinvPaused s a.part kind va = false →
    (invalidate s a.part kind va).owed.any (Owed.of a.part) = false →
    exec (.tlbinvComplete id) s = .next (finish (invalidate s a.part kind va) a cw)) ∧
  (∀ (s : State) (p kind va : Nat),
    let goes := fun (e : TlbE) => e.part = p ∧ (kind = 1 ∨ (e.va ≤ va ∧ va < e.va + e.size))
    let t := invalidate s p kind va
    (s.part p).ringHeld = [] → (s.part p).recHeld = [] →
    (∀ c, ∀ e ∈ (s.core c).tlb, goes e → e.counted = false ∨ e.count = 0) →
    (∀ k, ∀ e ∈ s.cluTlb.get [] k, goes e → e.counted = false ∨ e.count = 0) →
    (∀ c, (∀ e ∈ (t.core c).tlb, ¬goes e) ∧ ∀ e ∈ (s.core c).tlb, ¬goes e → e ∈ (t.core c).tlb) ∧
    (∀ k, (∀ e ∈ t.cluTlb.get [] k, ¬goes e) ∧ ∀ e ∈ s.cluTlb.get [] k, ¬goes e → e ∈ t.cluTlb.get [] k) ∧ t.mem = s.mem) ∧
  (∀ (s : State) (port entry : Nat), port ≠ ingressPort →
    (grantOf s port (entry % 64) = none → exec (.slotGrant port entry) s = .next s) ∧
    ∀ a, grantOf s port (entry % 64) = some a →
      ((∃ q ∈ portsOf s a, q ≠ port ∧ q ∉ a.grants) →
        exec (.slotGrant port entry) s = .next (s.putOp { a with grants := port :: a.grants })) ∧
      ((∀ q ∈ portsOf s a, q = port ∨ q ∈ a.grants) →
        exec (.slotGrant port entry) s =
          fire (s.putOp { a with grants := port :: a.grants }) { a with grants := port :: a.grants })) ∧
  (∀ (s u : State) (entry : Nat) (e : Nat × FabItem),
    grantee s ingressPort (entry % 64) (s.fabric.arrived.map fun e => (e.1, e)) = some e → performArrived s e = some u →
    exec (.slotGrant ingressPort entry) s = .next u) ∧
  (∀ (s : State) (port : Nat) (n : KV Nat), (s.slots.get SlotTab.reset port).next = some n →
    exec (.slotTableSwitch port) s =
      .next { s with slots := s.slots.set port { s.slots.get SlotTab.reset port with own := n, next := none } }) ∧
  (∀ (s : State) (n : Nat) (cfg : PartCfg), (bootCfgs s).find? (fun q => q.num == n) = some cfg → s.host.stage = 15 →
    s.host.negok = true → (s.part n).live = false → cfgOk s cfg = true → stackPaused s cfg.tcb = false → startsHeld s = false →
    let u := setRoutes (writeTables cfg (tablesOf cfg)
      (readTcb (ownCores n cfg.control cfg.cores (s.setPart n { Sys2Proof.Machine.Part.none with live := true, cfg := cfg })) n)) cfg
    argsWait u cfg = false → exec (.partitionCreate n) s = .next (startSupervisor u cfg)) ∧
  (∀ (s : State) (cfg : PartCfg),
    let k := (startSupervisor s cfg).ctx cfg.control 0
    k.status = .ready ∧ k.level = 1 ∧ k.regs.pc = 0 ∧ k.regs.rg 1 = BitVec.ofNat 64 cfg.args ∧ (∀ n, n ≠ 1 → k.regs.rg n = 0) ∧
      k.info.textVa = cfg.text ∧ k.info.textSz = cfg.textSz) ∧
  (∀ (s : State) (p : Nat) (new : PartCfg), (s.part p).live = true → startsHeld s = false → (s.part p).change = some new →
    (affected (s.part p).cfg new).all (coreEmpty s (staying (s.part p).cfg new)) = true →
    let u := applyChange s p new
    (new.control = (s.part p).cfg.control → exec (.partitionChange p) s = .next u) ∧
    (new.control ≠ (s.part p).cfg.control → argsWait u new = false → exec (.partitionChange p) s = .next (startSupervisor u new))) ∧
  (∀ (s : State) (dest : Nat), exec (.shelfSwitchFailure dest) s = .next (leaveSwitch (loseDest s dest) dest)) ∧
  ∀ (s : State) (dest p : Nat), (s.parts.map (·.1)).Nodup → (s.part p).live = true →
    let gone := fun (n : Nat) => (s.part p).cfg.peers.any fun e => e.1 == n && e.2.1 == 2 && e.2.2 == dest
    let now := ((loseDest s dest).part p).shelf
    now.length = (s.part p).shelf.length ∧ ∀ e ∈ (s.part p).shelf.zip now, e.2.base = e.1.base ∧ e.2.size = e.1.size ∧ e.2.gen = e.1.gen ∧
      (gone e.1.peer1 = false → (∀ q, e.1.peer2 = some q → gone q = false) → e.2 = e.1) ∧
      (e.1.state = 2 → e.2 = e.1) ∧
      (e.1.state ≠ 2 → e.1.peer2 = none → gone e.1.peer1 = true → e.2.state = 2) ∧
      (∀ q, e.1.state ≠ 2 → e.1.peer2 = some q → e.1.peer1 ≠ q →
        (gone e.1.peer1 = true → gone q = true → e.2.state = 2) ∧
        (gone e.1.peer1 = true → gone q = false → e.2.state = 1 ∧ e.2.peer1 = q) ∧
        (gone e.1.peer1 = false → gone q = true → e.2.state = 1 ∧ e.2.peer1 = e.1.peer1))

/-! ### Events: fabric and errors -/

/-- Items are taken in route-sequence order: the expected one is acted on, one before it is a duplicate and dropped, one after it waits.
A request that passes the ingress check waits at the ingress port and performs there; one that does not performs nothing.  Links and ports
come and go with their counts, links whose words differ are held down; a destination whose ports are all down becomes unreachable and is
marked reachable again (R311 to R318).  What an item holds is the model's choice (log entry 34). -/
def Obligations.FabricEvents : Prop :=
  (∀ (s : State) (src tenant seq kind addr : Nat) (bytes : List Byte),
    let i : FabItem := ⟨src, tenant, seq % 2 ^ 32, kind, addr, bytes⟩
    let ahead := (i.seq + 2 ^ 32 - s.fabric.rxSeq.get 0 src) % 2 ^ 32
    (ahead = 0 → s.fabric.held = [] → exec (.fabricReceive src tenant seq kind addr bytes) s = .next (takeItem s i)) ∧
    (2 ^ 31 ≤ ahead → exec (.fabricReceive src tenant seq kind addr bytes) s = .next s) ∧
    (0 < ahead → ahead < 2 ^ 31 → (s.fabric.held.any fun j => j.src == src && j.seq == i.seq) = false →
      exec (.fabricReceive src tenant seq kind addr bytes) s =
        .next { s with fabric := { s.fabric with held := s.fabric.held ++ [i] } })) ∧
  (∀ (s : State) (i : FabItem), (takeItem s i).fabric.rxSeq.get 0 i.src = (i.seq + 1) % 2 ^ 32 ∧ (takeItem s i).mem = s.mem) ∧
  (∀ (s : State) (i : FabItem) (p : Nat), i.kind ≤ 2 → ingressPart s i.src i.tenant = some p →
    (takeItem s i).fabric.arrived = s.fabric.arrived ++ (if ingressOk s p i then [(p, i)] else [])) ∧
  (∀ (s : State) (i : FabItem), ingressPart s i.src i.tenant = none → (takeItem s i).fabric.arrived = s.fabric.arrived ∧
    (takeItem s i).ops = s.ops ∧ (takeItem s i).colls = s.colls) ∧
  (∀ (s : State) (i : FabItem) (p : Nat), i.kind = 1 → stackPaused s i.addr = false → nmBusy s (i.addr / 64) = false →
    partLines s (cells i.addr i.bytes) = [] → ∃ u, performArrived s (p, i) = some u ∧
      ∀ ga, u.byte ga = lastByte (cells i.addr i.bytes) (s.byte ga) ga) ∧
  (∀ (s : State) (p l far fw0 fw1 : Nat), p < 24 → l < 4 → (s.port p).isUp = false →
    (∃ t, exec (.linkUp p l far fw0 fw1) s = .next t ∧ (t.port p).far = far % 4 ∧
      (t.port p).link l = ⟨true, false, fwMask 0 (fw0 % 2 ^ 64), fwMask 1 (fw1 % 2 ^ 64)⟩ ∧ (t.port p).isUp = true) ∧
    ∃ t, exec (.linkRetrain p l fw0 fw1) s = .next t ∧ (t.port p).far = (s.port p).far ∧
      (t.port p).link l = ⟨true, false, fwMask 0 (fw0 % 2 ^ 64), fwMask 1 (fw1 % 2 ^ 64)⟩) ∧
  (∀ (s : State) (p l m fw0 fw1 : Nat), p < 24 → l < 4 → m < 4 → ((s.port p).link l).up = false → ((s.port p).link m).up = true →
    ((s.port p).link m).fw0 ≠ fwMask 0 (fw0 % 2 ^ 64) → ∃ t, exec (.linkRetrain p l fw0 fw1) s = .next t ∧
      (t.port p).link l = ⟨false, true, 0, 0⟩ ∧ (t.port p).fails = Nat.min ((s.port p).fails + 1) 255) ∧
  (∀ (s : State) (p l : Nat), p < 24 → ((s.port p).link l).up = true →
    exec (.flitReplay p l) s = .next (s.setPort p { s.port p with rtry := Nat.min ((s.port p).rtry + 1) (2 ^ 32 - 1) }) ∧
    ∃ t, exec (.linkFailure p l) s = .next t ∧ (t.port p).fails = Nat.min ((s.port p).fails + 1) 255 ∧
      (t.port p).link l = ⟨false, true, 0, 0⟩) ∧
  (∀ (s : State) (d : Nat), s.fabric.unreach.contains d = false → livePort s d = none →
    ∃ t, exec (.destinationUnreachable d) s = .next t ∧ t.fabric.unreach.contains d = true) ∧
  ∀ (s : State) (d : Nat), (livePort s d).isSome = true → ∃ t, exec (.reachableMark d) s = .next t ∧
    t = { s with fabric := { s.fabric with unreach := t.fabric.unreach } } ∧
    ∀ e, t.fabric.unreach.contains e = (s.fabric.unreach.contains e && e != d)

/-- An uncorrectable error marks its line, or its beat, or is consumed by the context's next bundle: outside a segment that takes the
fault, in a segment it rewinds the first time, with the registers of the segment's entry, every scratchpad unit of the undo log as it was
before the segment, and its event counted, and takes the fault the second time; a corrected error counts (R51, R324 to R329).  How an
error enters the machine is the model's choice (log entry 29), and that a write by others survives a rewind its reading (log entry 79). -/
def Obligations.ErrorEvents : Prop :=
  (∀ (s : State) (c x kind addr : Nat), kind ≤ 5 ∨ kind = 10 ∨ kind = 11 → s.poisoned (addr / 64) = false →
    exec (.poisonConsumption c x kind addr) s = .next { s with poison := s.poison ++ [addr / 64] }) ∧
  (∀ (s : State) (c x addr : Nat), exec (.poisonConsumption c x 9 addr) s = .next (s.modCtx c x fun k => poisonBeat k addr)) ∧
  (∀ (s : State) (c x kind addr : Nat), 6 ≤ kind → kind ≤ 8 → issuer s c = some x →
    let at_ : Where := ⟨(s.ctx c x).regs.ltime, (s.ctx c x).regs.pc, 15, (s.ctx c x).regs.rep⟩
    ((s.ctx c x).seg = none →
      exec (.poisonConsumption c x kind addr) s = .next (takeCause s c x 0 { code := 0x37, info0 := addr, info1 := kind } at_)) ∧
    ∀ g, (s.ctx c x).seg = some g →
      (g.chain.contains (regLine kind addr) = true → exec (.poisonConsumption c x kind addr) s =
        .next (takeCause s c x 0 { code := 0x37, info0 := addr, info1 := kind, info2 := 1 } at_)) ∧
      (g.chain.contains (regLine kind addr) = false → g.shadow.xfers = [] →
        g.undo.Pairwise (fun a b => a.kind ≠ b.kind ∨ a.unit ≠ b.unit) →
        ∃ t, exec (.poisonConsumption c x kind addr) s = .next t ∧
          (t.ctx c x).regs = { g.shadow with recent := (t.ctx c x).regs.recent } ∧
          (t.ctx c x).seg = some { g with undo := [], units := [], beats := [], chain := regLine kind addr :: g.chain, reissue := true } ∧
          (t.core c).ras.get 0 1 = Nat.min ((s.core c).ras.get 0 1 + 1) (2 ^ 32 - 1) ∧
          (∀ e ∈ g.undo, e.kind = 0 → 2 ^ 48 ≤ 64 * e.unit → readNat t.mem 64 (64 * e.unit) = e.image % 2 ^ 512) ∧
          ∀ ga, 2 ^ 48 ≤ ga → (g.undo.any fun e => e.kind == 0 && e.unit == ga / 64) = false → t.byte ga = s.byte ga)) ∧
  ∀ (s : State) (c : Nat), exec (.patrolScrub c) s =
    .next (s.modCore c fun k => { k with ras := k.ras.set 0 (Nat.min (k.ras.get 0 0 + 1) (2 ^ 32 - 1)) })

/-! ### Events: power, board, host -/

/-- Gear changes, static ticks, the cap controller, holds, ballast, wear, stack frequencies, droop, orderly shutdown, the emergency save,
the removal of power, after which only the flash, the safe tier, the persistent regions of the second tier in force and memory that is not
the module's keep their contents, and the restart (R16, R101, R330 to R344, R352, R361).  What is free or chosen of it: log entries 15, 27,
49, 50. -/
def Obligations.PowerEvents : Prop :=
  (∀ (s : State) (c x : Nat), (s.core c).active = some x → (s.core c).changing = none → (s.core c).rails ≠ (s.core c).curOf x →
    (s.core c).halted = false →
    exec (.gearChange c) s = .next (s.modCore c fun k => { k with changing := some ((s.core c).curOf x, x, 0) })) ∧
  (∀ (s : State) (c g y n : Nat), (s.core c).changing = some (g, y, n) →
    (∃ t, exec (.gearChangeDone c) s = .next t ∧ (t.core c).rails = g ∧ (t.core c).changing = none ∧ t.mem = s.mem) ∧
    ((stopChange s c y).core c).changing = some (g, y, n + gearPart s c n) ∧
    (n ≤ gearLimit (s.core c).rails → n + gearPart s c n ≤ gearLimit (s.core c).rails)) ∧
  (∀ (s : State) (c x w : Nat), 512 ≤ c → s.charge c x w = s) ∧
  (∀ (s : State) (c : Nat), ∃ t, exec (.staticTick c) s = .next t ∧ (t.core c).ticks = (s.core c).ticks + 1 ∧ t.mem = s.mem) ∧
  (∀ (s : State), ∃ t, exec .capControllerStep s = .next t ∧ t.capCtl = s.capCtl + 1 ∧
    t.power.cap = s.power.capNext.getD s.power.cap ∧ t.power.capNext = none ∧ t.mem = s.mem) ∧
  (∀ (s : State) (die : Nat), ∃ t, exec (.thermalHold die) s = .next t ∧ t.power.hold.get false die = true ∧
    ∀ c < 512, dieOf c = die → (t.core c).capg ≤ 1) ∧
  (∀ (s : State) (die : Nat), exec (.thermalRelease die) s =
    .next { s with power := { s.power with hold := s.power.hold.erase die } }) ∧
  (∀ (s : State) (k : Nat),
    exec (.droopTrip k) s = .next { s with power := { s.power with droop := s.power.droop.set k true } } ∧
    exec (.droopRecovery k) s = .next { s with power := { s.power with droop := s.power.droop.erase k } }) ∧
  (∀ (s : State) (n f : Nat), n < 12 → f ≤ 3 → (s.hbmStacks.get Stack.reset n).freq ≠ f →
    exec (.hbmFrequencyChange n f) s = .next (s.modStack n fun t => { t with freq := f, paused := true })) ∧
  (∀ (s : State) (n : Nat), n < 12 → exec (.retrainingPauseEnd n) s =
      .next (postAll (catchUp (s.modStack n fun t => { t with paused := false }))) ∧
    exec (.hbm4Refresh n) s = .next s) ∧
  (∀ (s : State) (k : Nat),
    let w := 25 * s.power.issued.get 0 k
    let line := s.power.estimate.get 0 k - 221184
    let run := s.power.ballast.get 0 k
    let late := 20000 ≤ s.now % 2 ^ 64 - s.power.ballastAt.get 0 k
    ∃ t, exec (.ballastEstimate k) s = .next t ∧ t.power.issued.get 0 k = 0 ∧
      (line ≤ w → t.power.estimate.get 0 k = w ∧ t.power.ballast.get 0 k = 0) ∧
      (w < line → (run = 0 ∨ ¬late) → t.power.estimate.get 0 k = line ∧ t.power.ballast.get 0 k = run + (line - w)) ∧
      (w < line → run ≠ 0 → late → t.power.estimate.get 0 k = w ∧ t.power.ballast.get 0 k = 0 ∧
        t.host.evprod = (s.host.evprod + 1) % 2 ^ 64)) ∧
  (∀ (s : State) (die deg : Nat), die < 4 → ∃ t, exec (.wearSwing die deg) s = .next t ∧
    t = { s with power := { s.power with wear := t.power.wear } } ∧
    ∀ n < 3, t.power.wear.get 0 (3 * die + n) =
      if deg ≥ 20 * (n + 1) then Nat.min (s.power.wear.get 0 (3 * die + n) + 1) (2 ^ 32 - 1) else s.power.wear.get 0 (3 * die + n)) ∧
  (∀ (s : State), exec .wearFlashWrite s = .next { s with flash := { s.flash with wear := s.power.wear } } ∧
    ∃ t, exec .orderlyShutdown s = .next t ∧ t.flash.wear = s.power.wear ∧ t.mem = s.mem ∧
      ∀ stage i, i ∈ interfaces stage → (t.flash.records.find i).any (fun r => r.digestOk && r.linkOk) = true) ∧
  (∀ (s : State), s.power.emergency = false → s.host.ckst ≠ 1 → ∃ t n, exec .emergencySave s = .next t ∧
    t.emergency = (if safeBytes s = 0 ∨ safeBytes s < n.len then none else some n) ∧ t.power.emergency = true ∧ n.sig = 0x4757454D ∧
    n.gen = (s.host.ckgen + 1) % 2 ^ 32 ∧ n.ptime = s.now % 2 ^ 64 ∧ n.cores = s.cores ∧ n.tasks = s.tasks ∧ n.images = s.images ∧
    n.mem = s.mem.filter fun e => savedByte e.1) ∧
  (∀ (s : State), ∃ t, exec .powerRemoval s = .next t ∧ t.powered = false ∧ t.flash = s.flash ∧ t.checkpoint = s.checkpoint ∧
    t.emergency = s.emergency ∧ t.cores = [] ∧ t.parts = [] ∧ t.ops = [] ∧ (∀ ga, savedByte ga = true → t.byte ga = 0) ∧
    (∀ ga, lpaClass ga = some 4 → (s.host.safe.any fun r =>
      decide (tierBase + r.1 * 2 ^ 30 ≤ ga ∧ ga < tierBase + (r.1 + r.2) * 2 ^ 30)) = true → t.byte ga = s.byte ga) ∧
    ∀ ga, t.byte ga = if keptByte s (shelfDests s) ga then s.byte ga else 0) ∧
  (∀ (s : State), s.host.stage = 15 → s.host.negok = true → (s.parts.any fun e => e.2.live) = false → startsHeld s = false →
    (∀ n, s.emergency = some n → n.sig = 0x4757454D → n.digestOk = true →
      n.gen = ((s.checkpoint.map (·.gen)).getD 0 + 1) % 2 ^ 32 →
      exec .restartRestore s = .next { restoreSnap s n n.unusable with emergency := none }) ∧
    ∀ n, s.emergency.filter (fun m => m.sig == 0x4757454D && m.digestOk &&
        m.gen == ((s.checkpoint.map (·.gen)).getD 0 + 1) % 2 ^ 32) = none →
      s.checkpoint = some n → exec .restartRestore s = .next (restoreSnap s n []))

/-- Boot stages, the host's registers, checkpoints, attestation and the host's window (R345 to R355).  What is chosen of it: log entries
16 (report), 17 (flash as shipped), 51 (events of the host), 53 (reads of the window). -/
def Obligations.HostEvents : Prop :=
  (∀ (s : State), s.powered = false → exec .powerOn s = .next { s with powered := true }) ∧
  (∀ (s : State) (n : Nat), 2 ≤ n → n ≤ 9 → s.host.fatal = false → s.host.ended.contains n = false →
    (stageNeeds n).all s.host.ended.contains = true →
    (s.host.ended.length ≠ 8 →
      ∃ t, exec (.bootStageComplete n) s = .next t ∧ t.host.ended = s.host.ended ++ [n] ∧ t.host.stage = max s.host.stage n ∧
        (n ≠ 7 → t.mem = s.mem) ∧ (n = 2 → t.host.xmss = xmssNext s.flash) ∧ (n = 3 → t.power.cap = s.bank.cap) ∧
        ∀ i ∈ interfaces n, (t.flash.records.find i).any (fun r => r.digestOk && r.linkOk) = true) ∧
    (s.host.ended.length = 8 →
      ∃ t, exec (.bootStageComplete n) s = .next t ∧ t.host.stage = 15 ∧ t.host.foffer.get 0 0 = 0x3F ∧
        t.flash.floor = max (floorOf s.flash) s.bank.version ∧ t.host.ckgen = (s.checkpoint.map (·.gen)).getD 0)) ∧
  (∀ (s : State), s.host.fatal = false → s.host.ended = [] →
    (∀ b, bootBank s.flash = some b → ∃ t, exec (.bootStageComplete 1) s = .next t ∧ t.host.bank = b ∧ t.host.stage = 1 ∧
      t.host.ended = [1] ∧ ∀ c x, 512 ≤ c → c < 516 → x < 4 → (t.ctx c x).level = 2) ∧
    (bootBank s.flash = none → ∃ t, exec (.bootStageComplete 1) s = .next t ∧ t.host.fatal = true ∧ t.host.fcode = 1)) ∧
  (∀ (s : State) (f0 f1 f2 f3 : Nat),
    (s.host.stage = 15 → (s.parts.any fun e => e.2.live) = false →
      ∃ t, exec (.fdoorSubmit f0 f1 f2 f3) s = .next t ∧ t.host.negok = true ∧ t.host.msix.get 0 1 = s.host.msix.get 0 1 + 1 ∧
        t.host.fack.get 0 0 = (f0 % 2 ^ 6) &&& s.host.foffer.get 0 0 ∧ ∀ n, 1 ≤ n → n < 4 → t.host.fack.get 0 n = 0) ∧
    (s.host.stage ≠ 15 ∨ (s.parts.any fun e => e.2.live) = true →
      ∃ t, exec (.fdoorSubmit f0 f1 f2 f3) s = .next t ∧ t.host.negok = s.host.negok ∧ t.host.fack = s.host.fack)) ∧
  (∀ (s : State) (v : Nat),
    (60 ≤ v % 2 ^ 9 → v % 2 ^ 9 ≤ 300 → exec (.capsetWrite v) s = .next { s with
      host := { s.host with capset := v % 2 ^ 9 }
      power := if s.host.ckst = 1 then { s.power with cap := v % 2 ^ 9, capNext := none }
        else { s.power with capNext := some (v % 2 ^ 9) } }) ∧
    (v % 2 ^ 9 < 60 ∨ 300 < v % 2 ^ 9 → exec (.capsetWrite v) s = .next s)) ∧
  (∀ (s : State) (sec : Nat), exec (.checkpointPeriod sec) s =
    .next { s with host := { s.host with ckctl := sec % 2 ^ 16 * 2 ^ 32 } }) ∧
  (∀ (s : State),
    let w := setCkctl s 1 (bits s.host.ckctl 32 16)
    let room := (s.host.safe.map fun r => r.2).sum * 2 ^ 30
    (s.host.ckst = 1 → exec .checkpointStart s = .next w) ∧
    (s.host.ckst ≠ 1 → s.host.stage = 15 → s.power.emergency = false →
      (room < checkpointLen → exec .checkpointStart s = .next (setCkst w 4)) ∧
      (checkpointLen ≤ room → ∃ t, exec .checkpointStart s = .next t ∧ t.host.ckst = 1 ∧ t.host.resumeList = stoppable s ∧
        t.host.stopAt = s.now % 2 ^ 64 ∧ bits t.host.ckctl 0 1 = 1 ∧ bits t.host.ckctl 32 16 = bits s.host.ckctl 32 16) ∧
      (checkpointLen ≤ room → bits s.host.ckctl 32 16 ≠ 0 → ∃ t, exec .periodicCheckpoint s = .next t ∧ t.host.ckst = 1 ∧
        t.host.resumeList = stoppable s ∧ t.host.stopAt = s.now % 2 ^ 64))) ∧
  (∀ (s : State), s.host.ckst = 1 → ∃ t n, exec .checkpointComplete s = .next t ∧ t.host.ckst = 2 ∧ t.checkpoint = some n ∧
    n.sig = 0x4757454D ∧ n.digestOk = true ∧ n.len = checkpointLen ∧ n.ptime = s.host.stopAt ∧
    n.gen = (s.host.ckgen + 1) % 2 ^ 32 ∧ t.host.ckgen = (s.host.ckgen + 1) % 2 ^ 32 ∧
    t.host.msix.get 0 2 = s.host.msix.get 0 2 + 1) ∧
  (∀ (s : State) (addr : Nat), exec (.attestationRequest addr) s =
    .next { s with host := { s.host with attreq := addr % 2 ^ 64, attBusy := true } }) ∧
  (∀ (s : State),
    (s.host.attBusy = true → s.host.ended.contains 2 = true → ∃ t, exec .attestationReportReady s = .next t ∧
      t.host.attBusy = false ∧ t.host.msix.get 0 3 = s.host.msix.get 0 3 + 1 ∧
      t.host.xmss = (if reportStatus s = 0 then s.host.xmss + 1 else s.host.xmss) ∧
      (s.poison = [] → readNat t.mem 8 (hostLpa s.host.attreq + 32) = reportStatus s)) ∧
    (s.host.ended.contains 2 = false → exec .attestationReportReady s = .next s)) ∧
  (∀ (s : State) (port : Nat), exec (.expanderReturn port) s =
    .next { s with host := { s.host with extLost := s.host.extLost.filter (· != port) } }) ∧
  ∀ (s : State) (addr g : Nat) (b : Byte), barPlace s addr = some g → stackPaused s g = false → nmBusy s (g / 64) = false →
    s.poison = [] →
    (∃ t, exec (.hostWindowAccess addr true [b]) s = .next t ∧ ∀ ga, t.byte ga = (if ga = g then b else s.byte ga)) ∧
    exec (.hostWindowAccess addr false [b]) s = .next { s with host := { s.host with readData := [s.byte g] } }
end

