-- ==== Sys2Proof/Laws/State.lean ====
section
/-!
SUPPORT. The laws of the finite maps and of the state's accessors: what reads back what was written, and that an update of one part
leaves the others.  A frame lemma names every field of `State` that its update leaves; `simp` splits it into one rule a field.
-/

namespace Sys2Proof.KV

variable {α : Type}

/-! ### Reading back -/

@[simp] theorem get_nil (d : α) (j : Nat) : get d [] j = d := rfl
@[simp] theorem get_set_self (d : α) (m : KV α) (j : Nat) (y : α) : (set m j y).get d j = y := by
  induction m with
  | nil => simp [set, get]
  | cons e rest ih =>
    obtain ⟨k, x⟩ := e
    simp only [set]
    split
    · simp [get]
    · split
      · simp [get]
      · rename_i h; simp [get, h, ih]
theorem get_set_ne (d : α) (m : KV α) {i j : Nat} (y : α) (h : i ≠ j) : (set m j y).get d i = m.get d i := by
  induction m with
  | nil => simp [set, get, h]
  | cons e rest ih =>
    obtain ⟨k, x⟩ := e
    simp only [set]
    split
    · simp [get, h]
    · split
      · rename_i h2; subst h2; simp [get, h]
      · simp [get, ih]
@[simp] theorem find_set_self (m : KV α) (j : Nat) (y : α) : (set m j y).find j = some y := by
  induction m with
  | nil => simp [set, find]
  | cons e rest ih =>
    obtain ⟨k, x⟩ := e
    simp only [set]
    split
    · simp [find]
    · split
      · simp [find]
      · rename_i h; simp [find, h, ih]
theorem find_set_ne (m : KV α) {i j : Nat} (y : α) (h : i ≠ j) : (set m j y).find i = m.find i := by
  induction m with
  | nil => simp [set, find, h]
  | cons e rest ih =>
    obtain ⟨k, x⟩ := e
    simp only [set]
    split
    · simp [find, h]
    · split
      · rename_i h2; subst h2; simp [find, h]
      · simp [find, ih]
@[simp] theorem get_erase_self (d : α) (m : KV α) (j : Nat) : (erase m j).get d j = d := by
  induction m with
  | nil => rfl
  | cons e rest ih =>
    obtain ⟨k, x⟩ := e
    simp only [erase]
    split
    · exact ih
    · rename_i h; simp [get, h, ih]
theorem get_erase_ne (d : α) (m : KV α) {i j : Nat} (h : i ≠ j) : (erase m j).get d i = m.get d i := by
  induction m with
  | nil => rfl
  | cons e rest ih =>
    obtain ⟨k, x⟩ := e
    simp only [erase]
    split
    · rename_i h2; subst h2; simp [get, h, ih]
    · simp [get, ih]
@[simp] theorem get_put_self [DecidableEq α] (d : α) (m : KV α) (j : Nat) (y : α) : (put d m j y).get d j = y := by
  unfold put; split
  · rename_i h; simp [h]
  · simp
theorem get_put_ne [DecidableEq α] (d : α) (m : KV α) {i j : Nat} (y : α) (h : i ≠ j) : (put d m j y).get d i = m.get d i := by
  unfold put; split
  · exact get_erase_ne d m h
  · exact get_set_ne d m y h
theorem get_map (d d' : α) (m : KV α) (f : α → α) (j : Nat) (h : f d = d') :
    KV.get d' (m.map fun e => (e.1, f e.2)) j = f (m.get d j) := by
  induction m with
  | nil => simp [get, h]
  | cons e rest ih => obtain ⟨k, x⟩ := e; simp only [List.map_cons, get]; split <;> simp_all

/-! ### The canonical form -/

theorem wfFrom_mono [DecidableEq α] (d : α) {lo hi : Option Nat} (m : KV α) (h : wfFrom d hi m = true)
    (hl : ∀ l, lo = some l → ∃ k, hi = some k ∧ l ≤ k) : wfFrom d lo m = true := by
  cases m with
  | nil => rfl
  | cons e rest =>
    obtain ⟨k, x⟩ := e
    simp only [wfFrom, Bool.and_eq_true, decide_eq_true_eq] at h ⊢
    refine ⟨⟨?_, h.1.2⟩, h.2⟩
    cases lo with
    | none => rfl
    | some l =>
      obtain ⟨b, rfl, hb⟩ := hl l rfl
      simp at h ⊢; omega
theorem wfFrom_set [DecidableEq α] (d : α) (lo : Option Nat) (m : KV α) (j : Nat) (y : α) (h : wfFrom d lo m = true) (hy : y ≠ d)
    (hj : ∀ l, lo = some l → l < j) : wfFrom d lo (set m j y) = true := by
  induction m generalizing lo with
  | nil => cases lo <;> simp_all [set, wfFrom]
  | cons e rest ih =>
    obtain ⟨k, x⟩ := e
    simp only [wfFrom, Bool.and_eq_true, decide_eq_true_eq] at h
    obtain ⟨⟨h1, h2⟩, h3⟩ := h
    simp only [set]
    split
    · cases lo <;> simp_all [wfFrom]
    · split
      · rename_i hk; subst hk; cases lo <;> simp_all [wfFrom]
      · have := ih (some k) h3 (by simp; omega)
        simp only [wfFrom, Bool.and_eq_true, decide_eq_true_eq]
        exact ⟨⟨h1, h2⟩, this⟩
theorem wfFrom_erase [DecidableEq α] (d : α) (lo : Option Nat) (m : KV α) (j : Nat) (h : wfFrom d lo m = true) :
    wfFrom d lo (erase m j) = true := by
  induction m generalizing lo with
  | nil => rfl
  | cons e rest ih =>
    obtain ⟨k, x⟩ := e
    simp only [wfFrom, Bool.and_eq_true, decide_eq_true_eq] at h
    simp only [erase]
    split
    · refine wfFrom_mono d _ (ih _ h.2) fun l hl => ⟨k, rfl, ?_⟩
      subst hl; simp at h; omega
    · simp only [wfFrom, Bool.and_eq_true, decide_eq_true_eq]
      exact ⟨h.1, ih _ h.2⟩
theorem wfFrom_filter [DecidableEq α] (d : α) (lo : Option Nat) (m : KV α) (f : Nat × α → Bool) (h : wfFrom d lo m = true) :
    wfFrom d lo (m.filter f) = true := by
  induction m generalizing lo with
  | nil => rfl
  | cons e rest ih =>
    obtain ⟨k, x⟩ := e
    simp only [wfFrom, Bool.and_eq_true, decide_eq_true_eq] at h
    simp only [List.filter_cons]
    split
    · simp only [wfFrom, Bool.and_eq_true, decide_eq_true_eq]
      exact ⟨h.1, ih _ h.2⟩
    · refine wfFrom_mono d _ (ih _ h.2) fun l hl => ⟨k, rfl, ?_⟩
      subst hl; simp at h; omega

/-- Every operation on a canonical map leaves it canonical. -/
theorem wf_put [DecidableEq α] (d : α) (m : KV α) (j : Nat) (y : α) (h : m.wf d = true) : (put d m j y).wf d = true := by
  unfold put; split
  · exact wfFrom_erase d none m j h
  · rename_i hy; exact wfFrom_set d none m j y h hy (by simp)
theorem wf_filter [DecidableEq α] (d : α) (m : KV α) (f : Nat × α → Bool) (h : m.wf d = true) : KV.wf d (m.filter f) = true :=
  wfFrom_filter d none m f h
theorem wf_foldl_put [DecidableEq α] (d : α) (l : List (Nat × α)) (m : KV α) (h : m.wf d = true) :
    KV.wf d (l.foldl (fun m e => m.put d e.1 e.2) m) = true := by
  induction l generalizing m with
  | nil => exact h
  | cons e rest ih => exact ih _ (wf_put d m e.1 e.2 h)

end Sys2Proof.KV

namespace Sys2Proof.Machine

open Sys2Proof

/-! ### Memory -/

theorem putBytes_wf (bytes : List (Nat × Byte)) (m : KV Byte) (h : m.wf 0 = true) : (putBytes m bytes).wf 0 = true := by
  induction bytes generalizing m with
  | nil => exact h
  | cons e rest ih => exact ih _ (KV.wf_put 0 m e.1 e.2 h)
/-- The one write of memory keeps the canonical form. -/
theorem store_wf (s : State) (bytes : List (Nat × Byte)) (rel : Option Rel) (h : s.mem.wf 0 = true) :
    (s.store bytes rel).mem.wf 0 = true := putBytes_wf _ _ h
theorem logRecord_wf (s : State) (known : List Byte) (h : s.mem.wf 0 = true) : (s.logRecord known).mem.wf 0 = true := putBytes_wf _ _ h
theorem storeNat_wf (s : State) (ga n x : Nat) (rel : Option Rel) (h : s.mem.wf 0 = true) :
    (s.storeNat ga n x rel).mem.wf 0 = true := store_wf _ _ _ h
/-- A byte that no write of a list names stays. -/
theorem putBytes_get_ne (bytes : List (Nat × Byte)) (m : KV Byte) (ga : Nat) (h : ∀ b ∈ bytes, b.1 ≠ ga) :
    (putBytes m bytes).get 0 ga = m.get 0 ga := by
  induction bytes generalizing m with
  | nil => rfl
  | cons e rest ih =>
    rw [putBytes, ih _ fun b hb => h b (List.mem_cons_of_mem _ hb)]
    exact KV.get_put_ne 0 m e.2 (Ne.symm (h e List.mem_cons_self))
theorem putBytes_append (a b : List (Nat × Byte)) (m : KV Byte) : putBytes m (a ++ b) = putBytes (putBytes m a) b := by
  induction a generalizing m with
  | nil => rfl
  | cons e rest ih => exact ih _

/-! ### Frames of the updates -/

variable (s : State)

@[simp] theorem setCore_frame (c : Nat) (k : Core) :
    (s.setCore c k).parts = s.parts ∧ (s.setCore c k).mem = s.mem ∧ (s.setCore c k).poison = s.poison ∧
    (s.setCore c k).races = s.races ∧ (s.setCore c k).locKnow = s.locKnow ∧ (s.setCore c k).hbmStacks = s.hbmStacks ∧
    (s.setCore c k).ops = s.ops ∧ (s.setCore c k).nextId = s.nextId ∧ (s.setCore c k).cluTlb = s.cluTlb ∧
    (s.setCore c k).owed = s.owed ∧ (s.setCore c k).walkPoison = s.walkPoison ∧
    (s.setCore c k).slots = s.slots ∧ (s.setCore c k).tasks = s.tasks ∧
    (s.setCore c k).colls = s.colls ∧ (s.setCore c k).fabric = s.fabric ∧ (s.setCore c k).power = s.power ∧
    (s.setCore c k).host = s.host ∧ (s.setCore c k).flash = s.flash ∧ (s.setCore c k).images = s.images ∧
    (s.setCore c k).checkpoint = s.checkpoint ∧ (s.setCore c k).emergency = s.emergency ∧ (s.setCore c k).capCtl = s.capCtl ∧
    (s.setCore c k).ptime = s.ptime ∧ (s.setCore c k).tick = s.tick ∧ (s.setCore c k).cur = s.cur ∧
    (s.setCore c k).inputs = s.inputs ∧ (s.setCore c k).residue = s.residue ∧ (s.setCore c k).powered = s.powered :=
  ⟨rfl, rfl, rfl, rfl, rfl, rfl, rfl, rfl, rfl, rfl, rfl, rfl, rfl, rfl, rfl, rfl, rfl, rfl, rfl, rfl, rfl, rfl, rfl, rfl, rfl,
  rfl, rfl, rfl⟩
@[simp] theorem setCtx_frame (c x : Nat) (k : Ctx) :
    (s.setCtx c x k).parts = s.parts ∧ (s.setCtx c x k).mem = s.mem ∧ (s.setCtx c x k).poison = s.poison ∧
    (s.setCtx c x k).races = s.races ∧ (s.setCtx c x k).locKnow = s.locKnow ∧ (s.setCtx c x k).hbmStacks = s.hbmStacks ∧
    (s.setCtx c x k).ops = s.ops ∧ (s.setCtx c x k).nextId = s.nextId ∧ (s.setCtx c x k).cluTlb = s.cluTlb ∧
    (s.setCtx c x k).owed = s.owed ∧ (s.setCtx c x k).walkPoison = s.walkPoison ∧
    (s.setCtx c x k).slots = s.slots ∧ (s.setCtx c x k).tasks = s.tasks ∧
    (s.setCtx c x k).colls = s.colls ∧ (s.setCtx c x k).fabric = s.fabric ∧ (s.setCtx c x k).power = s.power ∧
    (s.setCtx c x k).host = s.host ∧ (s.setCtx c x k).flash = s.flash ∧ (s.setCtx c x k).images = s.images ∧
    (s.setCtx c x k).checkpoint = s.checkpoint ∧ (s.setCtx c x k).emergency = s.emergency ∧
    (s.setCtx c x k).capCtl = s.capCtl ∧ (s.setCtx c x k).ptime = s.ptime ∧ (s.setCtx c x k).tick = s.tick ∧
    (s.setCtx c x k).cur = s.cur ∧ (s.setCtx c x k).inputs = s.inputs ∧ (s.setCtx c x k).residue = s.residue ∧
    (s.setCtx c x k).powered = s.powered :=
  ⟨rfl, rfl, rfl, rfl, rfl, rfl, rfl, rfl, rfl, rfl, rfl, rfl, rfl, rfl, rfl, rfl, rfl, rfl, rfl, rfl, rfl, rfl, rfl, rfl, rfl,
  rfl, rfl, rfl⟩
@[simp] theorem modCore_frame (c : Nat) (f : Core → Core) :
    (s.modCore c f).parts = s.parts ∧ (s.modCore c f).mem = s.mem ∧ (s.modCore c f).poison = s.poison ∧
    (s.modCore c f).races = s.races ∧ (s.modCore c f).locKnow = s.locKnow ∧ (s.modCore c f).hbmStacks = s.hbmStacks ∧
    (s.modCore c f).ops = s.ops ∧ (s.modCore c f).nextId = s.nextId ∧ (s.modCore c f).cluTlb = s.cluTlb ∧
    (s.modCore c f).owed = s.owed ∧ (s.modCore c f).walkPoison = s.walkPoison ∧
    (s.modCore c f).slots = s.slots ∧ (s.modCore c f).tasks = s.tasks ∧
    (s.modCore c f).colls = s.colls ∧ (s.modCore c f).fabric = s.fabric ∧ (s.modCore c f).power = s.power ∧
    (s.modCore c f).host = s.host ∧ (s.modCore c f).flash = s.flash ∧ (s.modCore c f).images = s.images ∧
    (s.modCore c f).checkpoint = s.checkpoint ∧ (s.modCore c f).emergency = s.emergency ∧ (s.modCore c f).capCtl = s.capCtl ∧
    (s.modCore c f).ptime = s.ptime ∧ (s.modCore c f).tick = s.tick ∧ (s.modCore c f).cur = s.cur ∧
    (s.modCore c f).inputs = s.inputs ∧ (s.modCore c f).residue = s.residue ∧ (s.modCore c f).powered = s.powered :=
  ⟨rfl, rfl, rfl, rfl, rfl, rfl, rfl, rfl, rfl, rfl, rfl, rfl, rfl, rfl, rfl, rfl, rfl, rfl, rfl, rfl, rfl, rfl, rfl, rfl, rfl,
  rfl, rfl, rfl⟩
@[simp] theorem modCtx_frame (c x : Nat) (f : Ctx → Ctx) :
    (s.modCtx c x f).parts = s.parts ∧ (s.modCtx c x f).mem = s.mem ∧ (s.modCtx c x f).poison = s.poison ∧
    (s.modCtx c x f).races = s.races ∧ (s.modCtx c x f).locKnow = s.locKnow ∧ (s.modCtx c x f).hbmStacks = s.hbmStacks ∧
    (s.modCtx c x f).ops = s.ops ∧ (s.modCtx c x f).nextId = s.nextId ∧ (s.modCtx c x f).cluTlb = s.cluTlb ∧
    (s.modCtx c x f).owed = s.owed ∧ (s.modCtx c x f).walkPoison = s.walkPoison ∧
    (s.modCtx c x f).slots = s.slots ∧ (s.modCtx c x f).tasks = s.tasks ∧
    (s.modCtx c x f).colls = s.colls ∧ (s.modCtx c x f).fabric = s.fabric ∧ (s.modCtx c x f).power = s.power ∧
    (s.modCtx c x f).host = s.host ∧ (s.modCtx c x f).flash = s.flash ∧ (s.modCtx c x f).images = s.images ∧
    (s.modCtx c x f).checkpoint = s.checkpoint ∧ (s.modCtx c x f).emergency = s.emergency ∧
    (s.modCtx c x f).capCtl = s.capCtl ∧ (s.modCtx c x f).ptime = s.ptime ∧ (s.modCtx c x f).tick = s.tick ∧
    (s.modCtx c x f).cur = s.cur ∧ (s.modCtx c x f).inputs = s.inputs ∧ (s.modCtx c x f).residue = s.residue ∧
    (s.modCtx c x f).powered = s.powered :=
  ⟨rfl, rfl, rfl, rfl, rfl, rfl, rfl, rfl, rfl, rfl, rfl, rfl, rfl, rfl, rfl, rfl, rfl, rfl, rfl, rfl, rfl, rfl, rfl, rfl, rfl,
  rfl, rfl, rfl⟩
@[simp] theorem modRegs_frame (c x : Nat) (f : Regs → Regs) :
    (s.modRegs c x f).parts = s.parts ∧ (s.modRegs c x f).mem = s.mem ∧ (s.modRegs c x f).poison = s.poison ∧
    (s.modRegs c x f).races = s.races ∧ (s.modRegs c x f).locKnow = s.locKnow ∧ (s.modRegs c x f).hbmStacks = s.hbmStacks ∧
    (s.modRegs c x f).ops = s.ops ∧ (s.modRegs c x f).nextId = s.nextId ∧ (s.modRegs c x f).cluTlb = s.cluTlb ∧
    (s.modRegs c x f).owed = s.owed ∧ (s.modRegs c x f).walkPoison = s.walkPoison ∧
    (s.modRegs c x f).slots = s.slots ∧ (s.modRegs c x f).tasks = s.tasks ∧
    (s.modRegs c x f).colls = s.colls ∧ (s.modRegs c x f).fabric = s.fabric ∧ (s.modRegs c x f).power = s.power ∧
    (s.modRegs c x f).host = s.host ∧ (s.modRegs c x f).flash = s.flash ∧ (s.modRegs c x f).images = s.images ∧
    (s.modRegs c x f).checkpoint = s.checkpoint ∧ (s.modRegs c x f).emergency = s.emergency ∧
    (s.modRegs c x f).capCtl = s.capCtl ∧ (s.modRegs c x f).ptime = s.ptime ∧ (s.modRegs c x f).tick = s.tick ∧
    (s.modRegs c x f).cur = s.cur ∧ (s.modRegs c x f).inputs = s.inputs ∧ (s.modRegs c x f).residue = s.residue ∧
    (s.modRegs c x f).powered = s.powered :=
  ⟨rfl, rfl, rfl, rfl, rfl, rfl, rfl, rfl, rfl, rfl, rfl, rfl, rfl, rfl, rfl, rfl, rfl, rfl, rfl, rfl, rfl, rfl, rfl, rfl, rfl,
  rfl, rfl, rfl⟩
@[simp] theorem setPart_frame (p : Nat) (q : Part) :
    (s.setPart p q).cores = s.cores ∧ (s.setPart p q).mem = s.mem ∧ (s.setPart p q).poison = s.poison ∧
    (s.setPart p q).races = s.races ∧ (s.setPart p q).locKnow = s.locKnow ∧ (s.setPart p q).hbmStacks = s.hbmStacks ∧
    (s.setPart p q).ops = s.ops ∧ (s.setPart p q).nextId = s.nextId ∧ (s.setPart p q).cluTlb = s.cluTlb ∧
    (s.setPart p q).owed = s.owed ∧ (s.setPart p q).walkPoison = s.walkPoison ∧
    (s.setPart p q).slots = s.slots ∧ (s.setPart p q).tasks = s.tasks ∧
    (s.setPart p q).colls = s.colls ∧ (s.setPart p q).fabric = s.fabric ∧ (s.setPart p q).power = s.power ∧
    (s.setPart p q).host = s.host ∧ (s.setPart p q).flash = s.flash ∧ (s.setPart p q).images = s.images ∧
    (s.setPart p q).checkpoint = s.checkpoint ∧ (s.setPart p q).emergency = s.emergency ∧ (s.setPart p q).capCtl = s.capCtl ∧
    (s.setPart p q).ptime = s.ptime ∧ (s.setPart p q).tick = s.tick ∧ (s.setPart p q).cur = s.cur ∧
    (s.setPart p q).inputs = s.inputs ∧ (s.setPart p q).residue = s.residue ∧ (s.setPart p q).powered = s.powered :=
  ⟨rfl, rfl, rfl, rfl, rfl, rfl, rfl, rfl, rfl, rfl, rfl, rfl, rfl, rfl, rfl, rfl, rfl, rfl, rfl, rfl, rfl, rfl, rfl, rfl, rfl,
  rfl, rfl, rfl⟩
@[simp] theorem modPart_frame (p : Nat) (f : Part → Part) :
    (s.modPart p f).cores = s.cores ∧ (s.modPart p f).mem = s.mem ∧ (s.modPart p f).poison = s.poison ∧
    (s.modPart p f).races = s.races ∧ (s.modPart p f).locKnow = s.locKnow ∧ (s.modPart p f).hbmStacks = s.hbmStacks ∧
    (s.modPart p f).ops = s.ops ∧ (s.modPart p f).nextId = s.nextId ∧ (s.modPart p f).cluTlb = s.cluTlb ∧
    (s.modPart p f).owed = s.owed ∧ (s.modPart p f).walkPoison = s.walkPoison ∧
    (s.modPart p f).slots = s.slots ∧ (s.modPart p f).tasks = s.tasks ∧
    (s.modPart p f).colls = s.colls ∧ (s.modPart p f).fabric = s.fabric ∧ (s.modPart p f).power = s.power ∧
    (s.modPart p f).host = s.host ∧ (s.modPart p f).flash = s.flash ∧ (s.modPart p f).images = s.images ∧
    (s.modPart p f).checkpoint = s.checkpoint ∧ (s.modPart p f).emergency = s.emergency ∧ (s.modPart p f).capCtl = s.capCtl ∧
    (s.modPart p f).ptime = s.ptime ∧ (s.modPart p f).tick = s.tick ∧ (s.modPart p f).cur = s.cur ∧
    (s.modPart p f).inputs = s.inputs ∧ (s.modPart p f).residue = s.residue ∧ (s.modPart p f).powered = s.powered :=
  ⟨rfl, rfl, rfl, rfl, rfl, rfl, rfl, rfl, rfl, rfl, rfl, rfl, rfl, rfl, rfl, rfl, rfl, rfl, rfl, rfl, rfl, rfl, rfl, rfl, rfl,
  rfl, rfl, rfl⟩
@[simp] theorem dropOp_frame (id : Nat) :
    (s.dropOp id).cores = s.cores ∧ (s.dropOp id).parts = s.parts ∧ (s.dropOp id).mem = s.mem ∧
    (s.dropOp id).poison = s.poison ∧ (s.dropOp id).races = s.races ∧ (s.dropOp id).locKnow = s.locKnow ∧
    (s.dropOp id).hbmStacks = s.hbmStacks ∧ (s.dropOp id).nextId = s.nextId ∧ (s.dropOp id).cluTlb = s.cluTlb ∧
    (s.dropOp id).owed = s.owed ∧ (s.dropOp id).walkPoison = s.walkPoison ∧ (s.dropOp id).slots = s.slots ∧ (s.dropOp id).tasks = s.tasks ∧
    (s.dropOp id).colls = s.colls ∧ (s.dropOp id).fabric = s.fabric ∧ (s.dropOp id).power = s.power ∧
    (s.dropOp id).host = s.host ∧ (s.dropOp id).flash = s.flash ∧ (s.dropOp id).images = s.images ∧
    (s.dropOp id).checkpoint = s.checkpoint ∧ (s.dropOp id).emergency = s.emergency ∧ (s.dropOp id).capCtl = s.capCtl ∧
    (s.dropOp id).ptime = s.ptime ∧ (s.dropOp id).tick = s.tick ∧ (s.dropOp id).cur = s.cur ∧ (s.dropOp id).inputs = s.inputs ∧
    (s.dropOp id).residue = s.residue ∧ (s.dropOp id).powered = s.powered :=
  ⟨rfl, rfl, rfl, rfl, rfl, rfl, rfl, rfl, rfl, rfl, rfl, rfl, rfl, rfl, rfl, rfl, rfl, rfl, rfl, rfl, rfl, rfl, rfl, rfl, rfl,
  rfl, rfl, rfl⟩
@[simp] theorem putOp_frame (a : Async) :
    (s.putOp a).cores = s.cores ∧ (s.putOp a).parts = s.parts ∧ (s.putOp a).mem = s.mem ∧ (s.putOp a).poison = s.poison ∧
    (s.putOp a).races = s.races ∧ (s.putOp a).locKnow = s.locKnow ∧ (s.putOp a).hbmStacks = s.hbmStacks ∧ (s.putOp a).nextId = s.nextId ∧
    (s.putOp a).cluTlb = s.cluTlb ∧ (s.putOp a).owed = s.owed ∧ (s.putOp a).walkPoison = s.walkPoison ∧ (s.putOp a).slots = s.slots ∧
    (s.putOp a).tasks = s.tasks ∧ (s.putOp a).colls = s.colls ∧ (s.putOp a).fabric = s.fabric ∧ (s.putOp a).power = s.power ∧
    (s.putOp a).host = s.host ∧ (s.putOp a).flash = s.flash ∧ (s.putOp a).images = s.images ∧ (s.putOp a).checkpoint = s.checkpoint ∧
    (s.putOp a).emergency = s.emergency ∧ (s.putOp a).capCtl = s.capCtl ∧ (s.putOp a).ptime = s.ptime ∧ (s.putOp a).tick = s.tick ∧
    (s.putOp a).cur = s.cur ∧ (s.putOp a).inputs = s.inputs ∧ (s.putOp a).residue = s.residue ∧ (s.putOp a).powered = s.powered :=
  ⟨rfl, rfl, rfl, rfl, rfl, rfl, rfl, rfl, rfl, rfl, rfl, rfl, rfl, rfl, rfl, rfl, rfl, rfl, rfl, rfl, rfl, rfl, rfl, rfl, rfl, rfl,
  rfl, rfl⟩
@[simp] theorem setOp_frame (a : Async) :
    (s.setOp a).cores = s.cores ∧ (s.setOp a).parts = s.parts ∧ (s.setOp a).mem = s.mem ∧ (s.setOp a).poison = s.poison ∧
    (s.setOp a).races = s.races ∧ (s.setOp a).locKnow = s.locKnow ∧ (s.setOp a).hbmStacks = s.hbmStacks ∧
    (s.setOp a).nextId = s.nextId ∧ (s.setOp a).cluTlb = s.cluTlb ∧ (s.setOp a).owed = s.owed ∧ (s.setOp a).walkPoison = s.walkPoison ∧
    (s.setOp a).slots = s.slots ∧ (s.setOp a).tasks = s.tasks ∧ (s.setOp a).colls = s.colls ∧ (s.setOp a).fabric = s.fabric ∧
    (s.setOp a).power = s.power ∧ (s.setOp a).host = s.host ∧ (s.setOp a).flash = s.flash ∧ (s.setOp a).images = s.images ∧
    (s.setOp a).checkpoint = s.checkpoint ∧ (s.setOp a).emergency = s.emergency ∧ (s.setOp a).capCtl = s.capCtl ∧
    (s.setOp a).ptime = s.ptime ∧ (s.setOp a).tick = s.tick ∧ (s.setOp a).cur = s.cur ∧ (s.setOp a).inputs = s.inputs ∧
    (s.setOp a).residue = s.residue ∧ (s.setOp a).powered = s.powered :=
  ⟨rfl, rfl, rfl, rfl, rfl, rfl, rfl, rfl, rfl, rfl, rfl, rfl, rfl, rfl, rfl, rfl, rfl, rfl, rfl, rfl, rfl, rfl, rfl, rfl, rfl,
  rfl, rfl, rfl⟩
@[simp] theorem post_frame (a : Async) :
    (s.post a).cores = s.cores ∧ (s.post a).parts = s.parts ∧ (s.post a).mem = s.mem ∧ (s.post a).poison = s.poison ∧
    (s.post a).races = s.races ∧ (s.post a).locKnow = s.locKnow ∧ (s.post a).hbmStacks = s.hbmStacks ∧ (s.post a).cluTlb = s.cluTlb ∧
    (s.post a).owed = s.owed ∧ (s.post a).walkPoison = s.walkPoison ∧ (s.post a).slots = s.slots ∧ (s.post a).tasks = s.tasks ∧
    (s.post a).colls = s.colls ∧ (s.post a).fabric = s.fabric ∧ (s.post a).power = s.power ∧ (s.post a).host = s.host ∧
    (s.post a).flash = s.flash ∧ (s.post a).images = s.images ∧ (s.post a).checkpoint = s.checkpoint ∧
    (s.post a).emergency = s.emergency ∧ (s.post a).capCtl = s.capCtl ∧ (s.post a).ptime = s.ptime ∧ (s.post a).tick = s.tick ∧
    (s.post a).cur = s.cur ∧ (s.post a).inputs = s.inputs ∧ (s.post a).residue = s.residue ∧ (s.post a).powered = s.powered :=
  ⟨rfl, rfl, rfl, rfl, rfl, rfl, rfl, rfl, rfl, rfl, rfl, rfl, rfl, rfl, rfl, rfl, rfl, rfl, rfl, rfl, rfl, rfl, rfl, rfl, rfl,
  rfl, rfl⟩
@[simp] theorem raise_frame (v : Nat) :
    (s.raise v).cores = s.cores ∧ (s.raise v).parts = s.parts ∧ (s.raise v).mem = s.mem ∧ (s.raise v).poison = s.poison ∧
    (s.raise v).races = s.races ∧ (s.raise v).locKnow = s.locKnow ∧ (s.raise v).hbmStacks = s.hbmStacks ∧ (s.raise v).ops = s.ops ∧
    (s.raise v).nextId = s.nextId ∧ (s.raise v).cluTlb = s.cluTlb ∧ (s.raise v).owed = s.owed ∧ (s.raise v).walkPoison = s.walkPoison ∧
    (s.raise v).slots = s.slots ∧ (s.raise v).tasks = s.tasks ∧ (s.raise v).colls = s.colls ∧ (s.raise v).fabric = s.fabric ∧
    (s.raise v).power = s.power ∧ (s.raise v).flash = s.flash ∧ (s.raise v).images = s.images ∧
    (s.raise v).checkpoint = s.checkpoint ∧ (s.raise v).emergency = s.emergency ∧ (s.raise v).capCtl = s.capCtl ∧
    (s.raise v).ptime = s.ptime ∧ (s.raise v).tick = s.tick ∧ (s.raise v).cur = s.cur ∧ (s.raise v).inputs = s.inputs ∧
    (s.raise v).residue = s.residue ∧ (s.raise v).powered = s.powered :=
  ⟨rfl, rfl, rfl, rfl, rfl, rfl, rfl, rfl, rfl, rfl, rfl, rfl, rfl, rfl, rfl, rfl, rfl, rfl, rfl, rfl, rfl, rfl, rfl, rfl, rfl,
  rfl, rfl, rfl⟩
/-- The undo logs alone see a write by others. -/
@[simp] theorem patchLogs_frame (bytes : List (Nat × Byte)) :
    (s.patchLogs bytes).parts = s.parts ∧ (s.patchLogs bytes).mem = s.mem ∧ (s.patchLogs bytes).poison = s.poison ∧
    (s.patchLogs bytes).races = s.races ∧ (s.patchLogs bytes).locKnow = s.locKnow ∧ (s.patchLogs bytes).hbmStacks = s.hbmStacks ∧
    (s.patchLogs bytes).ops = s.ops ∧ (s.patchLogs bytes).nextId = s.nextId ∧ (s.patchLogs bytes).cluTlb = s.cluTlb ∧
    (s.patchLogs bytes).owed = s.owed ∧ (s.patchLogs bytes).walkPoison = s.walkPoison ∧ (s.patchLogs bytes).slots = s.slots ∧
    (s.patchLogs bytes).tasks = s.tasks ∧ (s.patchLogs bytes).colls = s.colls ∧ (s.patchLogs bytes).fabric = s.fabric ∧
    (s.patchLogs bytes).power = s.power ∧ (s.patchLogs bytes).host = s.host ∧ (s.patchLogs bytes).flash = s.flash ∧
    (s.patchLogs bytes).checkpoint = s.checkpoint ∧ (s.patchLogs bytes).emergency = s.emergency ∧ (s.patchLogs bytes).capCtl = s.capCtl ∧
    (s.patchLogs bytes).ptime = s.ptime ∧ (s.patchLogs bytes).tick = s.tick ∧ (s.patchLogs bytes).cur = s.cur ∧
    (s.patchLogs bytes).inputs = s.inputs ∧ (s.patchLogs bytes).residue = s.residue ∧ (s.patchLogs bytes).powered = s.powered :=
  ⟨rfl, rfl, rfl, rfl, rfl, rfl, rfl, rfl, rfl, rfl, rfl, rfl, rfl, rfl, rfl, rfl, rfl, rfl, rfl, rfl, rfl, rfl, rfl, rfl, rfl, rfl,
  rfl⟩
@[simp] theorem patch_frame (bytes : List (Nat × Byte)) (k : Ctx) :
    (k.patch bytes).regs = k.regs ∧ (k.patch bytes).status = k.status ∧ (k.patch bytes).level = k.level ∧
    (k.patch bytes).mons = k.mons ∧ (k.patch bytes).deferred = k.deferred ∧ (k.patch bytes).held = k.held ∧
    (k.patch bytes).energy = k.energy ∧ (k.patch bytes).seg.isSome = k.seg.isSome :=
  ⟨rfl, rfl, rfl, rfl, rfl, rfl, rfl, by simp [Ctx.patch]⟩
@[simp] theorem storeRaw_frame (bytes : List (Nat × Byte)) (rel : Option Rel) :
    (s.storeRaw bytes rel).parts = s.parts ∧ (s.storeRaw bytes rel).races = s.races ∧ (s.storeRaw bytes rel).hbmStacks = s.hbmStacks ∧
    (s.storeRaw bytes rel).ops = s.ops ∧ (s.storeRaw bytes rel).nextId = s.nextId ∧ (s.storeRaw bytes rel).cluTlb = s.cluTlb ∧
    (s.storeRaw bytes rel).owed = s.owed ∧ (s.storeRaw bytes rel).walkPoison = s.walkPoison ∧ (s.storeRaw bytes rel).slots = s.slots ∧
    (s.storeRaw bytes rel).tasks = s.tasks ∧ (s.storeRaw bytes rel).colls = s.colls ∧ (s.storeRaw bytes rel).fabric = s.fabric ∧
    (s.storeRaw bytes rel).power = s.power ∧ (s.storeRaw bytes rel).host = s.host ∧ (s.storeRaw bytes rel).flash = s.flash ∧
    (s.storeRaw bytes rel).checkpoint = s.checkpoint ∧ (s.storeRaw bytes rel).emergency = s.emergency ∧
    (s.storeRaw bytes rel).capCtl = s.capCtl ∧ (s.storeRaw bytes rel).ptime = s.ptime ∧ (s.storeRaw bytes rel).tick = s.tick ∧
    (s.storeRaw bytes rel).cur = s.cur ∧ (s.storeRaw bytes rel).inputs = s.inputs ∧ (s.storeRaw bytes rel).residue = s.residue ∧
    (s.storeRaw bytes rel).powered = s.powered :=
  ⟨rfl, rfl, rfl, rfl, rfl, rfl, rfl, rfl, rfl, rfl, rfl, rfl, rfl, rfl, rfl, rfl, rfl, rfl, rfl, rfl, rfl, rfl, rfl, rfl⟩
@[simp] theorem store_mem (bytes : List (Nat × Byte)) (rel : Option Rel) : (s.store bytes rel).mem = (s.storeRaw bytes rel).mem := rfl
@[simp] theorem store_poison (bytes : List (Nat × Byte)) (rel : Option Rel) : (s.store bytes rel).poison = (s.storeRaw bytes rel).poison :=
  rfl
@[simp] theorem store_frame (bytes : List (Nat × Byte)) (rel : Option Rel) :
    (s.store bytes rel).parts = s.parts ∧ (s.store bytes rel).races = s.races ∧ (s.store bytes rel).hbmStacks = s.hbmStacks ∧
    (s.store bytes rel).ops = s.ops ∧ (s.store bytes rel).nextId = s.nextId ∧ (s.store bytes rel).cluTlb = s.cluTlb ∧
    (s.store bytes rel).owed = s.owed ∧ (s.store bytes rel).walkPoison = s.walkPoison ∧
    (s.store bytes rel).slots = s.slots ∧ (s.store bytes rel).tasks = s.tasks ∧
    (s.store bytes rel).colls = s.colls ∧ (s.store bytes rel).fabric = s.fabric ∧ (s.store bytes rel).power = s.power ∧
    (s.store bytes rel).host = s.host ∧ (s.store bytes rel).flash = s.flash ∧
    (s.store bytes rel).checkpoint = s.checkpoint ∧ (s.store bytes rel).emergency = s.emergency ∧
    (s.store bytes rel).capCtl = s.capCtl ∧ (s.store bytes rel).ptime = s.ptime ∧ (s.store bytes rel).tick = s.tick ∧
    (s.store bytes rel).cur = s.cur ∧ (s.store bytes rel).inputs = s.inputs ∧ (s.store bytes rel).residue = s.residue ∧
    (s.store bytes rel).powered = s.powered :=
  ⟨rfl, rfl, rfl, rfl, rfl, rfl, rfl, rfl, rfl, rfl, rfl, rfl, rfl, rfl, rfl, rfl, rfl, rfl, rfl, rfl, rfl, rfl, rfl, rfl⟩
@[simp] theorem sampled_frame  :
    (s.sampled).cores = s.cores ∧ (s.sampled).parts = s.parts ∧ (s.sampled).mem = s.mem ∧ (s.sampled).poison = s.poison ∧
    (s.sampled).races = s.races ∧ (s.sampled).locKnow = s.locKnow ∧ (s.sampled).hbmStacks = s.hbmStacks ∧ (s.sampled).ops = s.ops ∧
    (s.sampled).nextId = s.nextId ∧ (s.sampled).cluTlb = s.cluTlb ∧ (s.sampled).owed = s.owed ∧ (s.sampled).walkPoison = s.walkPoison ∧
    (s.sampled).slots = s.slots ∧ (s.sampled).tasks = s.tasks ∧ (s.sampled).colls = s.colls ∧ (s.sampled).fabric = s.fabric ∧
    (s.sampled).power = s.power ∧ (s.sampled).host = s.host ∧ (s.sampled).flash = s.flash ∧ (s.sampled).images = s.images ∧
    (s.sampled).checkpoint = s.checkpoint ∧ (s.sampled).emergency = s.emergency ∧ (s.sampled).capCtl = s.capCtl ∧
    (s.sampled).cur = s.cur ∧ (s.sampled).inputs = s.inputs ∧ (s.sampled).residue = s.residue ∧
    (s.sampled).powered = s.powered :=
  ⟨rfl, rfl, rfl, rfl, rfl, rfl, rfl, rfl, rfl, rfl, rfl, rfl, rfl, rfl, rfl, rfl, rfl, rfl, rfl, rfl, rfl, rfl, rfl, rfl, rfl,
  rfl, rfl⟩
@[simp] theorem sendOn_frame (dest : Nat) :
    (s.sendOn dest).cores = s.cores ∧ (s.sendOn dest).parts = s.parts ∧ (s.sendOn dest).mem = s.mem ∧
    (s.sendOn dest).poison = s.poison ∧ (s.sendOn dest).races = s.races ∧ (s.sendOn dest).locKnow = s.locKnow ∧
    (s.sendOn dest).hbmStacks = s.hbmStacks ∧ (s.sendOn dest).ops = s.ops ∧ (s.sendOn dest).nextId = s.nextId ∧
    (s.sendOn dest).cluTlb = s.cluTlb ∧ (s.sendOn dest).owed = s.owed ∧ (s.sendOn dest).walkPoison = s.walkPoison ∧
    (s.sendOn dest).slots = s.slots ∧
    (s.sendOn dest).tasks = s.tasks ∧ (s.sendOn dest).colls = s.colls ∧ (s.sendOn dest).power = s.power ∧
    (s.sendOn dest).host = s.host ∧ (s.sendOn dest).flash = s.flash ∧ (s.sendOn dest).images = s.images ∧
    (s.sendOn dest).checkpoint = s.checkpoint ∧ (s.sendOn dest).emergency = s.emergency ∧ (s.sendOn dest).capCtl = s.capCtl ∧
    (s.sendOn dest).ptime = s.ptime ∧ (s.sendOn dest).tick = s.tick ∧ (s.sendOn dest).cur = s.cur ∧ (s.sendOn dest).inputs = s.inputs ∧
    (s.sendOn dest).residue = s.residue ∧ (s.sendOn dest).powered = s.powered :=
  ⟨rfl, rfl, rfl, rfl, rfl, rfl, rfl, rfl, rfl, rfl, rfl, rfl, rfl, rfl, rfl, rfl, rfl, rfl, rfl, rfl, rfl, rfl, rfl, rfl, rfl,
  rfl, rfl, rfl⟩
@[simp] theorem heard_frame (dest : Nat) :
    (s.heard dest).cores = s.cores ∧ (s.heard dest).parts = s.parts ∧ (s.heard dest).mem = s.mem ∧ (s.heard dest).poison = s.poison ∧
    (s.heard dest).races = s.races ∧ (s.heard dest).locKnow = s.locKnow ∧ (s.heard dest).hbmStacks = s.hbmStacks ∧
    (s.heard dest).ops = s.ops ∧ (s.heard dest).nextId = s.nextId ∧ (s.heard dest).cluTlb = s.cluTlb ∧
    (s.heard dest).owed = s.owed ∧ (s.heard dest).walkPoison = s.walkPoison ∧
    (s.heard dest).slots = s.slots ∧ (s.heard dest).tasks = s.tasks ∧
    (s.heard dest).colls = s.colls ∧ (s.heard dest).power = s.power ∧ (s.heard dest).host = s.host ∧ (s.heard dest).flash = s.flash ∧
    (s.heard dest).images = s.images ∧ (s.heard dest).checkpoint = s.checkpoint ∧ (s.heard dest).emergency = s.emergency ∧
    (s.heard dest).capCtl = s.capCtl ∧ (s.heard dest).ptime = s.ptime ∧ (s.heard dest).tick = s.tick ∧ (s.heard dest).cur = s.cur ∧
    (s.heard dest).inputs = s.inputs ∧ (s.heard dest).residue = s.residue ∧ (s.heard dest).powered = s.powered :=
  ⟨rfl, rfl, rfl, rfl, rfl, rfl, rfl, rfl, rfl, rfl, rfl, rfl, rfl, rfl, rfl, rfl, rfl, rfl, rfl, rfl, rfl, rfl, rfl, rfl, rfl,
  rfl, rfl, rfl⟩
@[simp] theorem exchangeN_frame (ga n : Nat) :
    (s.exchangeN ga n).cores = s.cores ∧ (s.exchangeN ga n).parts = s.parts ∧ (s.exchangeN ga n).mem = s.mem ∧
    (s.exchangeN ga n).poison = s.poison ∧ (s.exchangeN ga n).races = s.races ∧ (s.exchangeN ga n).locKnow = s.locKnow ∧
    (s.exchangeN ga n).hbmStacks = s.hbmStacks ∧ (s.exchangeN ga n).ops = s.ops ∧ (s.exchangeN ga n).nextId = s.nextId ∧
    (s.exchangeN ga n).cluTlb = s.cluTlb ∧ (s.exchangeN ga n).owed = s.owed ∧ (s.exchangeN ga n).walkPoison = s.walkPoison ∧
    (s.exchangeN ga n).slots = s.slots ∧ (s.exchangeN ga n).tasks = s.tasks ∧ (s.exchangeN ga n).colls = s.colls ∧
    (s.exchangeN ga n).power = s.power ∧ (s.exchangeN ga n).host = s.host ∧ (s.exchangeN ga n).flash = s.flash ∧
    (s.exchangeN ga n).images = s.images ∧ (s.exchangeN ga n).checkpoint = s.checkpoint ∧ (s.exchangeN ga n).emergency = s.emergency ∧
    (s.exchangeN ga n).capCtl = s.capCtl ∧ (s.exchangeN ga n).ptime = s.ptime ∧ (s.exchangeN ga n).tick = s.tick ∧
    (s.exchangeN ga n).cur = s.cur ∧ (s.exchangeN ga n).inputs = s.inputs ∧ (s.exchangeN ga n).residue = s.residue ∧
    (s.exchangeN ga n).powered = s.powered := by
  unfold State.exchangeN
  split <;> exact ⟨rfl, rfl, rfl, rfl, rfl, rfl, rfl, rfl, rfl, rfl, rfl, rfl, rfl, rfl, rfl, rfl, rfl, rfl, rfl, rfl, rfl, rfl, rfl, rfl, rfl, rfl,
    rfl, rfl⟩
@[simp] theorem exchange_frame (ga : Nat) :
    (s.exchange ga).cores = s.cores ∧ (s.exchange ga).parts = s.parts ∧ (s.exchange ga).mem = s.mem ∧
    (s.exchange ga).poison = s.poison ∧ (s.exchange ga).races = s.races ∧ (s.exchange ga).locKnow = s.locKnow ∧
    (s.exchange ga).hbmStacks = s.hbmStacks ∧ (s.exchange ga).ops = s.ops ∧ (s.exchange ga).nextId = s.nextId ∧
    (s.exchange ga).cluTlb = s.cluTlb ∧ (s.exchange ga).owed = s.owed ∧ (s.exchange ga).walkPoison = s.walkPoison ∧
    (s.exchange ga).slots = s.slots ∧
    (s.exchange ga).tasks = s.tasks ∧ (s.exchange ga).colls = s.colls ∧ (s.exchange ga).power = s.power ∧
    (s.exchange ga).host = s.host ∧ (s.exchange ga).flash = s.flash ∧ (s.exchange ga).images = s.images ∧
    (s.exchange ga).checkpoint = s.checkpoint ∧ (s.exchange ga).emergency = s.emergency ∧ (s.exchange ga).capCtl = s.capCtl ∧
    (s.exchange ga).ptime = s.ptime ∧ (s.exchange ga).tick = s.tick ∧ (s.exchange ga).cur = s.cur ∧ (s.exchange ga).inputs = s.inputs ∧
    (s.exchange ga).residue = s.residue ∧ (s.exchange ga).powered = s.powered :=
  by unfold State.exchange; split <;> simp
@[simp] theorem logRecord_frame (known : List Byte) :
    (s.logRecord known).parts = s.parts ∧ (s.logRecord known).races = s.races ∧ (s.logRecord known).hbmStacks = s.hbmStacks ∧
    (s.logRecord known).ops = s.ops ∧ (s.logRecord known).nextId = s.nextId ∧ (s.logRecord known).cluTlb = s.cluTlb ∧
    (s.logRecord known).owed = s.owed ∧ (s.logRecord known).walkPoison = s.walkPoison ∧
    (s.logRecord known).slots = s.slots ∧ (s.logRecord known).tasks = s.tasks ∧
    (s.logRecord known).colls = s.colls ∧ (s.logRecord known).fabric = s.fabric ∧ (s.logRecord known).power = s.power ∧
    (s.logRecord known).flash = s.flash ∧ (s.logRecord known).checkpoint = s.checkpoint ∧ (s.logRecord known).emergency = s.emergency ∧
    (s.logRecord known).capCtl = s.capCtl ∧ (s.logRecord known).ptime = s.ptime ∧ (s.logRecord known).cur = s.cur ∧
    (s.logRecord known).inputs = s.inputs ∧ (s.logRecord known).residue = s.residue ∧ (s.logRecord known).powered = s.powered :=
  ⟨rfl, rfl, rfl, rfl, rfl, rfl, rfl, rfl, rfl, rfl, rfl, rfl, rfl, rfl, rfl, rfl, rfl, rfl, rfl, rfl, rfl, rfl⟩

/-! ### What the accessors read after an update -/

@[simp] theorem core_setCore (c : Nat) (k : Core) : (s.setCore c k).core c = k := by simp [State.core, State.setCore]
theorem core_setCore_ne {c d : Nat} (k : Core) (h : d ≠ c) : (s.setCore c k).core d = s.core d := by
  simp [State.core, State.setCore, KV.get_set_ne _ _ _ h]
@[simp] theorem ctx_setCtx (c x : Nat) (k : Ctx) : (s.setCtx c x k).ctx c x = k := by simp [State.ctx, State.setCtx]
theorem ctx_setCtx_ne {c x y : Nat} (k : Ctx) (h : y ≠ x) : (s.setCtx c x k).ctx c y = s.ctx c y := by
  simp [State.ctx, State.setCtx, KV.get_set_ne _ _ _ h]
theorem ctx_setCtx_core {c d x y : Nat} (k : Ctx) (h : d ≠ c) : (s.setCtx c x k).ctx d y = s.ctx d y := by
  simp [State.ctx, State.setCtx, core_setCore_ne s _ h]
theorem core_setCtx (c x : Nat) (k : Ctx) : (s.setCtx c x k).core c = { s.core c with ctxs := (s.core c).ctxs.set x k } := by
  simp [State.setCtx]
theorem core_setCtx_ne {c d x : Nat} (k : Ctx) (h : d ≠ c) : (s.setCtx c x k).core d = s.core d := core_setCore_ne s _ h
@[simp] theorem ctx_modCtx (c x : Nat) (f : Ctx → Ctx) : (s.modCtx c x f).ctx c x = f (s.ctx c x) := ctx_setCtx s c x _
theorem ctx_modCtx_ne {c x y : Nat} (f : Ctx → Ctx) (h : y ≠ x) : (s.modCtx c x f).ctx c y = s.ctx c y := ctx_setCtx_ne s _ h
theorem ctx_modCtx_core {c d x y : Nat} (f : Ctx → Ctx) (h : d ≠ c) : (s.modCtx c x f).ctx d y = s.ctx d y := ctx_setCtx_core s _ h
theorem core_modCtx_ne {c d x : Nat} (f : Ctx → Ctx) (h : d ≠ c) : (s.modCtx c x f).core d = s.core d := core_setCore_ne s _ h
theorem core_modCtx (c x : Nat) (f : Ctx → Ctx) :
    (s.modCtx c x f).core c = { s.core c with ctxs := (s.core c).ctxs.set x (f (s.ctx c x)) } := core_setCtx s c x _
@[simp] theorem core_modCore (c : Nat) (f : Core → Core) : (s.modCore c f).core c = f (s.core c) := core_setCore s c _
theorem core_modCore_ne {c d : Nat} (f : Core → Core) (h : d ≠ c) : (s.modCore c f).core d = s.core d := core_setCore_ne s _ h
theorem ctx_modCore (c x : Nat) (f : Core → Core) : (s.modCore c f).ctx c x = (f (s.core c)).ctxs.get Ctx.reset x := by
  simp [State.ctx]
@[simp] theorem ctx_modRegs (c x : Nat) (f : Regs → Regs) : (s.modRegs c x f).ctx c x = { s.ctx c x with regs := f (s.ctx c x).regs } :=
  ctx_modCtx s c x _
@[simp] theorem part_setPart (p : Nat) (q : Part) : (s.setPart p q).part p = q := by simp [State.part, State.setPart]
theorem part_setPart_ne {p n : Nat} (q : Part) (h : n ≠ p) : (s.setPart p q).part n = s.part n := by
  simp [State.part, State.setPart, KV.get_set_ne _ _ _ h]
@[simp] theorem part_modPart (p : Nat) (f : Part → Part) : (s.modPart p f).part p = f (s.part p) := part_setPart s p _
theorem part_modPart_ne {p n : Nat} (f : Part → Part) (h : n ≠ p) : (s.modPart p f).part n = s.part n := part_setPart_ne s _ h
@[simp] theorem core_modPart (p c : Nat) (f : Part → Part) : (s.modPart p f).core c = s.core c := rfl
@[simp] theorem ctx_modPart (p c x : Nat) (f : Part → Part) : (s.modPart p f).ctx c x = s.ctx c x := rfl
@[simp] theorem part_modCtx (p c x : Nat) (f : Ctx → Ctx) : (s.modCtx c x f).part p = s.part p := rfl
@[simp] theorem part_modCore (p c : Nat) (f : Core → Core) : (s.modCore c f).part p = s.part p := rfl
@[simp] theorem core_dropOp (c id : Nat) : (s.dropOp id).core c = s.core c := rfl
@[simp] theorem ctx_dropOp (c x id : Nat) : (s.dropOp id).ctx c x = s.ctx c x := rfl
@[simp] theorem ctx_setOp (c x : Nat) (a : Async) : (s.setOp a).ctx c x = s.ctx c x := rfl
@[simp] theorem ctx_post (c x : Nat) (a : Async) : (s.post a).ctx c x = s.ctx c x := rfl
@[simp] theorem findOp_dropOp (id : Nat) : (s.dropOp id).findOp id = none := by
  simp [State.findOp, State.dropOp]

/-! ### Registers -/

@[simp] theorem rg_zero (r : Regs) : r.rg 0 = 0 := rfl
@[simp] theorem rp_zero (r : Regs) : r.rp 0 = true := rfl
@[simp] theorem wg_zero (r : Regs) (x : Word) : r.wg 0 x = r := rfl
theorem rg_wg (r : Regs) (n : Nat) (x : Word) (h : n ≠ 0) : (r.wg n x).rg n = x := by simp [Regs.wg, Regs.rg, h]
theorem rg_wg_ne (r : Regs) {m n : Nat} (x : Word) (h : m ≠ n) : (r.wg n x).rg m = r.rg m := by
  unfold Regs.wg; split
  · rfl
  · simp [Regs.rg, KV.get_set_ne _ _ _ h]

/-! ### Charges and results on their way -/

/-- A charge writes energy and the partition's measured power alone (R341). -/
theorem charge_cases (c x w : Nat) : s.charge c x w = s ∨ s.charge c x w =
    (s.modCtx c x (Ctx.charge w)).modPart (s.partOf c) fun p => { p with charged := p.charged + w } := by
  unfold State.charge; split
  · exact .inl rfl
  · exact .inr rfl
@[simp] theorem charge_mem (c x w : Nat) : (s.charge c x w).mem = s.mem := by
  rcases charge_cases s c x w with h | h <;> rw [h] <;> rfl
@[simp] theorem charge_regs (c x w : Nat) : ((s.charge c x w).ctx c x).regs = (s.ctx c x).regs := by
  rcases charge_cases s c x w with h | h <;> rw [h]
  simp [Ctx.charge]; split <;> rfl
/-- What idle cycles may do: nothing, or one charge to the context most recently active (R340). -/
theorem chargeIdle_cases (c : Nat) : chargeIdle s c = s ∨
    chargeIdle s c = { s.charge c (s.core c).last (Config.idleCycles s.tick * weight (s.core c).rails 12) with tick := s.tick + 1 } := by
  unfold chargeIdle; dsimp only; split
  · exact .inl rfl
  · exact .inr rfl
@[simp] theorem chargeIdle_mem (c : Nat) : (chargeIdle s c).mem = s.mem := by
  rcases chargeIdle_cases s c with h | h <;> rw [h]; exact charge_mem s c _ _
/-- A context of a housekeeping core is charged nothing (R340). -/
theorem charge_housekeeping {c : Nat} (x w : Nat) (h : c ≥ 512) : s.charge c x w = s := by
  unfold State.charge; simp [h]
@[simp] theorem chargeGear_mem (c x n : Nat) : (chargeGear s c x n).mem = s.mem := charge_mem s c x _
/-- What a stop may do to a change of gear: nothing, or the charge of its cycles so far to the context it is made for, whose change it
stays (R361). -/
theorem stopChange_cases (c x : Nat) : stopChange s c x = s ∨ ∃ g n, (s.core c).changing = some (g, x, n) ∧
    stopChange s c x = (chargeGear s c x n).modCore c fun k => { k with changing := some (g, x, n + gearPart s c n) } := by
  unfold stopChange; split
  · rename_i g y n h
    split
    · rename_i hy; subst hy; exact .inr ⟨g, n, h, rfl⟩
    · exact .inl rfl
  · exact .inl rfl
@[simp] theorem stopChange_mem (c x : Nat) : (stopChange s c x).mem = s.mem := by
  rcases stopChange_cases s c x with h | ⟨g, n, -, h⟩ <;> rw [h]; exact chargeGear_mem s c x n
/-- An eviction leaves all but the loop buffer of its core (R121). -/
theorem evict_eq (c : Nat) : evict s c = s ∨ evict s c = s.modCore c fun k => { k with pin := none } := by
  unfold evict; split
  · exact .inl rfl
  · exact .inr rfl
@[simp] theorem evict_mem (c : Nat) : (evict s c).mem = s.mem := by rcases evict_eq s c with h | h <;> rw [h]; rfl
@[simp] theorem pin_evict (c : Nat) : ((evict s c).core c).pin = none := by
  unfold evict; split
  · rename_i h; simpa using h
  · simp
/-- A held record is posted only where none of its context's bound events stands before it (R264). -/
theorem postOwn_some {c x : Nat} {t : State} (h : postOwn s c x = some t) : ∃ r s', (s.ctx c x).held = some r ∧
    (s.part r.part).recHeld.any (Rec.waits c x false) = false ∧ postRecord s r.part r = .ok s' ∧
    t = (s'.modCtx c x fun k => { k with held := none }).modPart r.part fun q =>
      { q with recHeld := q.recHeld.map fun e => if e.waits c x true then { e with behind := false } else e } := by
  unfold postOwn at h
  split at h
  · cases h
  · rename_i r hr
    split at h
    · cases h
    · rename_i hw
      split at h
      · cases h
      · rename_i s' hp
        exact ⟨r, s', hr, by simpa using hw, hp, (Option.some.inj h).symm⟩

end Sys2Proof.Machine
end

