-- ==== Sys2Proof/Laws/Boundary.lean ====
section
/-!
SUPPORT. What happens at a bundle boundary, said once: due granules, results that become visible, the loop step, a pending
transfer; taking a cause and returning from one, field by field (R119, R120, R146, R255, R256).
-/

namespace Sys2Proof.Machine

open Sys2Proof

/-- Without scheduled transfers nothing is written at a boundary. -/
theorem writeDue_of_none (s : State) (c x t : Nat) (h : (s.ctx c x).regs.xfers = []) : writeDue s c x t = s := by
  simp [writeDue, h]
/-- No result becomes visible where none is due. -/
theorem applyAll_nil (c x : Nat) (s : State) : applyAll c x s [] = s := by rfl
/-- A cycle with nothing in flight moves `LTIME` on and lets the records of recent stores and `VJOIN`s age (R24). -/
theorem settle_of_quiet (s : State) (c x : Nat) (h : (s.ctx c x).regs.xfers = []) (hi : (s.ctx c x).regs.inflight = []) :
    settle s c x = (s.modRegs c x fun r => { r with
      ltime := r.ltime + 1
      recent := r.recent.filter (fun e => decide (r.ltime + 1 < e.cycle + 16))
      vjoins := r.vjoins.filter fun j => decide (r.ltime + 1 < j + 24) }).modRegs c x fun r => { r with inflight := [] } := by
  simp [settle, h, hi, writeDue_of_none, applyAll_nil, State.modRegs, State.modCtx]
/-- A bundle that ends no active loop's body leaves the loops and goes on behind itself (R146). -/
theorem loopStep_of_no_end (r : Regs) (next : Nat) (h : ∀ l < 4, (r.loop l).act = true → (r.loop l).exit ≠ next) :
    loopStep r next = (r, next) := by
  have step : ∀ l rest, l < 4 → loopStepFrom r next rest = (r, next) → loopStepFrom r next (l :: rest) = (r, next) := by
    intro l rest hl hr
    simp only [loopStepFrom]
    cases ha : (r.loop l).act
    · simpa using hr
    · simp [h l hl ha]
  exact step 0 _ (by omega) (step 1 _ (by omega) (step 2 _ (by omega) (step 3 _ (by omega) rfl)))
/-- A bundle outside delay slots and loop ends moves on by its length. -/
theorem complete_plain (s : State) (c x len : Nat) (hp : (s.ctx c x).regs.pend = none)
    (h : ∀ l < 4, ((s.ctx c x).regs.loop l).act = true → ((s.ctx c x).regs.loop l).exit ≠ (s.ctx c x).regs.pc + len) :
    complete s c x len = s.modRegs c x fun _ =>
      { (s.ctx c x).regs with rep := 0, idleLeft := 0, pc := (s.ctx c x).regs.pc + len, pend := none } := by
  have e := loopStep_of_no_end { (s.ctx c x).regs with rep := 0, idleLeft := 0 } ((s.ctx c x).regs.pc + len) h
  unfold complete
  dsimp only
  rw [e]
  simp only [hp]
/-- A pending transfer with more than one delay bundle left counts down (R120). -/
theorem complete_delay (s : State) (c x len n : Nat) (k : PendKind) (hp : (s.ctx c x).regs.pend = some ⟨k, n⟩) (hn : 1 < n)
    (h : ∀ l < 4, ((s.ctx c x).regs.loop l).act = true → ((s.ctx c x).regs.loop l).exit ≠ (s.ctx c x).regs.pc + len) :
    complete s c x len =
      s.modRegs c x fun _ =>
        { (s.ctx c x).regs with rep := 0, idleLeft := 0, pc := (s.ctx c x).regs.pc + len, pend := some ⟨k, n - 1⟩ } := by
  have e := loopStep_of_no_end { (s.ctx c x).regs with rep := 0, idleLeft := 0 } ((s.ctx c x).regs.pc + len) h
  unfold complete
  dsimp only
  rw [e]
  simp only [hp, if_pos hn]

/-! ### Causes -/

@[simp] theorem vector_sepc (k : Ctx) (q : Nat) : (vector k q).sepc = k.regs.pc % 2 ^ 32 := rfl
@[simp] theorem vector_sptgt (k : Ctx) (q : Nat) : (vector k q).sptgt = ((pendTarget k k.regs.pend).getD k.sptgt) % 2 ^ 32 := rfl
@[simp] theorem vector_pc (k : Ctx) (q : Nat) : (vector k q).regs.pc = k.stvec := rfl
@[simp] theorem vector_rep (k : Ctx) (q : Nat) : (vector k q).regs.rep = 0 := rfl
@[simp] theorem vector_pend (k : Ctx) (q : Nat) : (vector k q).regs.pend = none := rfl
@[simp] theorem vector_g (k : Ctx) (q : Nat) : (vector k q).regs.g = k.regs.g := rfl
@[simp] theorem vector_inflight (k : Ctx) (q : Nat) : (vector k q).regs.inflight = k.regs.inflight := rfl
@[simp] theorem vector_status (k : Ctx) (q : Nat) : (vector k q).status = .ready := rfl
@[simp] theorem vector_level (k : Ctx) (q : Nat) : (vector k q).level = k.level := rfl
@[simp] theorem vector_held (k : Ctx) (q : Nat) : (vector k q).held = k.held := rfl
@[simp] theorem returnFrom_pc (k : Ctx) : (returnFrom k).regs.pc = k.sepc := rfl
@[simp] theorem returnFrom_rep (k : Ctx) : (returnFrom k).regs.rep = bits k.sstat 12 4 := rfl
@[simp] theorem returnFrom_pend (k : Ctx) : (returnFrom k).regs.pend = sstatPend k.sstat k.sptgt := rfl
@[simp] theorem returnFrom_g (k : Ctx) : (returnFrom k).regs.g = k.regs.g := rfl
@[simp] theorem returnFrom_level (k : Ctx) : (returnFrom k).level = k.level := rfl

end Sys2Proof.Machine
end

