-- ==== Sys2Proof/Laws/Images.lean ====
section
/-!
SUPPORT. Bytes of numbers, and the header of an image: it reads back as it was written (R267).
-/

namespace Sys2Proof.Machine

open Sys2Proof

/-- The number of bytes written one number after the other. -/
theorem ofBytes_append (n x : Nat) (l : List Byte) : ofBytes (toBytes n x ++ l) = x % 2 ^ (8 * n) + 2 ^ (8 * n) * ofBytes l := by
  induction n generalizing x with
  | zero => simp [toBytes, Nat.mod_one]
  | succ n ih =>
    simp only [toBytes, List.cons_append, ofBytes, ih, BitVec.toNat_ofNat, Nat.shiftRight_eq_div_pow]
    have h : x % 2 ^ (8 * (n + 1)) = x % 2 ^ 8 + 2 ^ 8 * (x / 2 ^ 8 % 2 ^ (8 * n)) := by
      rw [show 8 * (n + 1) = 8 + 8 * n from by omega, Nat.pow_add, Nat.mod_mul]
    rw [h, show 8 * (n + 1) = 8 + 8 * n from by omega, Nat.pow_add]
    simp only [Nat.mul_add, Nat.mul_assoc, Nat.add_assoc, Nat.reducePow]
/-- What a number's bytes hold. -/
theorem ofBytes_toBytes (n x : Nat) : ofBytes (toBytes n x) = x % 2 ^ (8 * n) := by
  have h := ofBytes_append n x []
  simpa [ofBytes] using h
/-- The lowest field of a number, and the fields above it. -/
theorem bits_low (m x y : Nat) : bits (x % 2 ^ m + 2 ^ m * y) 0 m = x % 2 ^ m := by
  simp [bits, Nat.add_mul_mod_self_left]
theorem bits_above (m n lo x y : Nat) (h : m ≤ lo) : bits (x % 2 ^ m + 2 ^ m * y) lo n = bits y (lo - m) n := by
  obtain ⟨k, rfl⟩ := Nat.exists_eq_add_of_le h
  unfold bits
  rw [Nat.shiftRight_add, Nat.shiftRight_eq_div_pow _ m, Nat.add_mul_div_left _ _ (Nat.two_pow_pos m),
    Nat.div_eq_of_lt (Nat.mod_lt _ (Nat.two_pow_pos m)), Nat.zero_add, Nat.add_sub_cancel_left]
theorem bits_all (m x : Nat) : bits (x % 2 ^ m) 0 m = x % 2 ^ m := by simp [bits]

/-- Every field of a header in the width it is written in. -/
def Header.fits (h : Header) : Prop :=
  h.ver < 2 ^ 32 ∧ h.kind < 2 ^ 8 ∧ h.state < 2 ^ 8 ∧ h.ctxs < 2 ^ 16 ∧ h.len < 2 ^ 32 ∧ h.core < 2 ^ 16 ∧ h.gear < 2 ^ 8 ∧
  h.flags < 2 ^ 8 ∧ h.ltime < 2 ^ 64 ∧ h.pc < 2 ^ 32 ∧ h.rep < 2 ^ 8 ∧ h.dly < 2 ^ 8 ∧ h.energy < 2 ^ 64 ∧ h.fsig < 2 ^ 64 ∧
  h.save < 2 ^ 64 ∧ h.load < 2 ^ 64
theorem headerOf_bytes (h : Header) (hf : h.fits) : headerOf h.bytes = h := by
  obtain ⟨h1, h2, h3, h4, h5, h6, h7, h8, h9, h10, h11, h12, h13, h14, h15, h16⟩ := hf
  cases h
  simp only at h1 h2 h3 h4 h5 h6 h7 h8 h9 h10 h11 h12 h13 h14 h15 h16
  simp only [Header.bytes, List.append_assoc, headerOf, ofBytes_append, ofBytes_toBytes]
  simp (disch := decide) only [Nat.reduceMul, bits_low, bits_all, bits_above, Nat.reduceSub]
  simp only [Nat.mod_eq_of_lt, *]

end Sys2Proof.Machine
end

