-- ==== Sys2Proof/Laws/Issue.lean ====
section
/-!
SUPPORT. The issue of one syllable: when it commits, when it traps, when it freezes. A claim about an instruction cites these
and never unfolds the issue of a bundle.
-/

namespace Sys2Proof.Machine

open Sys2Proof

/-- The meaning of a slot syllable is its issue alone in a bundle. -/
theorem exec_eq_issueOne (i : Instr) (o : Op) (s : State) (h : opOf i = some o) : exec i s = issueOne i o s := by
  cases i <;> first | (cases h; rfl) | cases h

theorem sole_eq (s : State) (x : Nat) (i : Instr) (o : Op) (h : opOf i = some o) : soleSyl s s.cur x i o = sole s x i := by
  simp only [sole, h, Option.getD_some]
theorem sole_op (s : State) (x : Nat) (i : Instr) (o : Op) (h : opOf i = some o) : (sole s x i).op = some o := by
  simp only [sole, h, Option.getD_some, soleSyl]

/-- No decode fault of a ready instruction (R115, R117, R118, R254). -/
theorem sylFault_of_ready (i : Instr) (o : Op) (s : State) (x : Nat) (ho : opOf i = some o) (h : Ready s x i) :
    sylFault s s.cur x (sole s x i) = none := by
  obtain ⟨⟨-, -, -, -, hh, hf⟩, hp, -⟩ := h
  have hop := sole_op s x i o ho
  have hslot : (sole s x i).slot = i.slot := rfl
  simp only [HoldsOk, FeatureOk, barred, ho, Option.map_some, Option.getD_some, Option.bind_some] at hh hf hp
  have hp2 : (((sole s x i).priv || ((sole s x i).op.map fun o => o.privNow s s.cur).getD false) &&
      (s.ctx s.cur x).level == 0) = false := by
    simp only [Syl.priv, hop, Option.map_some, Option.getD_some]
    cases hq : (o.priv || o.privNow s s.cur)
    · rfl
    · simpa using hp hq
  have hn : (((needsFeat i.slot o).map fun b => !s.hasFeat (s.partOf s.cur) b).getD false) = false := by
    revert hf; cases needsFeat i.slot o <;> simp
  simp only [sylFault, hp2]
  simp only [hop, hslot, hn, hh]
  simp

/-- The bundle of a ready instruction breaks no header rule (R120). -/
theorem illegal_of_ready (i : Instr) (o : Op) (s : State) (x : Nat) (ho : opOf i = some o) (h : Ready s x i) :
    illegalBundle s s.cur x (soleHead i) [sole s x i] = false := by
  obtain ⟨-, -, hc⟩ := h
  have hop := sole_op s x i o ho
  simp only [ControlOk, control, ho, Option.map_some, Option.getD_some] at hc
  cases hq : o.ctl
  · simp [illegalBundle, soleHead, hop, hq]
  · obtain ⟨h1, h2⟩ := hc hq
    simp [illegalBundle, soleHead, hop, h1]
    intro _; simpa [soleHead] using h2

/-- What a ready instruction does, by what its effect answers: it freezes on a dependence, stops with a cause, or commits. -/
theorem exec_ready (i : Instr) (o : Op) (s : State) (x : Nat) (ho : opOf i = some o) (h : Ready s x i)
    (hb : o.brk = none ∨ (ctxOf s x).stepping = true) :
    exec i s = .next (match o.wait (issOf s x i) s with
      | .dep d => freeze s s.cur x d
      | .trap q => stopBundle s s.cur x i.slot (.trap q)
      | .ok => match o.run (issOf s x i) s with
        | .ok t => issued s x i t
        | .error e => stopBundle s s.cur x i.slot e) := by
  have hf := sylFault_of_ready i o s x ho h
  have hi := illegal_of_ready i o s x ho h
  obtain ⟨⟨h1, h2, h3, -, -, -⟩, -, -⟩ := h
  have hop := sole_op s x i o ho
  have hslot : (sole s x i).slot = i.slot := rfl
  have hk : breakCause (s.ctx s.cur x) [sole s x i] = none := by
    unfold breakCause
    rcases hb with hb | hb
    · simp [h2, hop, hb]
    · simp only [Ctx.stepping, ctxOf] at hb; simp [Ctx.stepping, hb]
  rw [exec_eq_issueOne i o s ho]
  simp only [issueOne, h1, sole_eq s x i o ho, issue, hk, hi, List.findSome?_cons, hf, List.findSome?_nil]
  simp only [Bool.false_eq_true, if_false, firstDep, hop, perform, soleHead, runAll]
  simp only [issOf, soleHead]
  cases hw : o.wait (mkIss s s.cur x (soleHead i) [sole s x i] [] (sole s x i)) s with
  | dep d => simp only [soleHead] at hw; simp only [hw]
  | trap q => simp only [soleHead] at hw; simp [hw, hslot]
  | ok =>
    simp only [soleHead] at hw
    simp only [hw]
    simp
    cases hr : o.run (mkIss s s.cur x (soleHead i) [sole s x i] [] (sole s x i)) s with
    | error e => simp only [soleHead] at hr; simp only [hr, hslot]; cases e <;> simp [hw]
    | ok t => simp only [soleHead] at hr; simp only [hw, hr, h3, issued, soleHead]

/-- A ready instruction whose dependences are met has its effect. -/
theorem exec_of_ready (i : Instr) (o : Op) (s t : State) (x : Nat) (ho : opOf i = some o) (h : Ready s x i)
    (hb : o.brk = none) (hw : o.wait (issOf s x i) s = .ok) (hr : o.run (issOf s x i) s = .ok t) :
    exec i s = .next (issued s x i t) := by
  rw [exec_ready i o s x ho h (.inl hb), hw, hr]

end Sys2Proof.Machine
end

