-- ==== Sys2Proof/Tests/Slice0.lean ====
section
/-!
SUPPORT. Tests: a witness for the hypotheses of every statement, clause by clause; decoding of a word of every constructor, written
from the table's patterns and the spec's worked examples; an ill-formed term for each check; single steps on values worked out by hand.
-/

set_option Elab.async false

namespace Sys2Proof.Tests

open Sys2Proof Sys2Proof.Machine

/-! ### States to start from -/

/-- Context 0 of core 0 about to issue, at level S. -/
def base : State := { State.reset.withFetchWord 32 0 with cur := 0 }
/-- A companding curve: 17 rising codes. -/
def curve : List Nat := [0, 1, 2, 3, 4, 5, 6, 7, 8, 9, 10, 11, 12, 13, 14, 15, 16]
/-- Register `v`n carries tag n; `v13` is the scale half of the pair at `v12`. -/
def tagged : KV VReg :=
  [(1, ⟨0, 1⟩), (2, ⟨0, 2⟩), (3, ⟨0, 3⟩), (4, ⟨0, 4⟩), (5, ⟨0, 5⟩), (6, ⟨0, 6⟩), (7, ⟨0, 7⟩), (8, ⟨0, 8⟩), (9, ⟨0, 9⟩), (10, ⟨0, 10⟩),
   (11, ⟨0, 11⟩), (12, ⟨0, 12⟩), (13, ⟨0, 12⟩)]
/-- `g1`, `a1` at the own scratchpad, `g2`, `a2` in the page at 4096, `g3` at the shelf, `g4` a small number, `g5` a return dword, `g6`,
`g7`, `g8` a near-memory command, a collective and a curve, `g9` at the cluster scratchpad. -/
def regs0 : Regs :=
  { Regs.start with
    v := tagged, ct := [(0, ⟨curve, curve⟩)], a := [(1, BitVec.ofNat 57 windowBase), (2, 4096)]
    g := [(1, BitVec.ofNat 64 windowBase), (2, 4096), (3, BitVec.ofNat 64 shelfBase), (4, 7), (5, BitVec.ofNat 64 (windowBase + 2048)),
      (6, BitVec.ofNat 64 (windowBase + 0x300)), (7, BitVec.ofNat 64 (windowBase + 0x340)), (8, BitVec.ofNat 64 (windowBase + 0x200)),
      (9, BitVec.ofNat 64 (windowBase + 0x1000000))] }
/-- A fill of 4 FP32 elements at 8192 (R179), an all-reduce of 4 INT32 elements over 2 ranks (R193), and a curve's 17 pairs. -/
def scratch : List (Nat × Byte) :=
  cells (coreBase 0 + 0x300) [1, 10, 0, 0, 4, 0, 0, 0, 0, 0x20, 0, 0, 0, 0, 0, 0] ++
  cells (coreBase 0 + 0x340) ([0, 3, 0, 0, 4, 0, 0, 0, 0, 0x20, 0, 0, 0, 0, 0, 0, 0, 0x30, 0, 0, 0, 0, 0, 0, 0, 0, 0, 0, 2, 0, 0, 0]) ++
  cells (coreBase 0 + 0x200) (curve.flatMap fun n => toBytes 4 n ++ toBytes 4 n)
/-- The state of the witnesses: claims, a barrier that has passed phase 0, an armed monitor, a send and a receive binding. -/
def wit : State :=
  let s := { base with mem := putBytes base.mem scratch }
  let s := s.modPart 0 fun q => { q with cfg := { q.cfg with cluUnits := [(0, 0)] } }
  let s := s.modCore 0 fun k => { k with
    claims := [(claimKey 0 0, ⟨0, false⟩), (claimKey 0 1, ⟨0, false⟩), (claimKey 1 0, ⟨0, false⟩), (claimKey 2 0, ⟨0, false⟩)]
    bars := [(1, ⟨1, 1, 0, 0, false, []⟩)] }
  s.modCtx 0 0 fun k => { k with
    regs := regs0, sstat := 1, mons := [(0, ⟨true, 0, some 5, none, none⟩)], sends := [(0, ⟨0, 0, 0, 0⟩)], recvs := [(1, true)]
    queues := [(1, [⟨0, 0, false, 0, 0, 0, 0⟩])] }

/-- The witness may issue `i`, and nothing of its context waits. -/
abbrev Fit (s : State) (i : Instr) : Prop := Ready s 0 i ∧ Calm s 0 ∧ NoLoopEnd s 0 i

/-! ### Witnesses of the tables: every constructor of each family, with its effect -/

/-- Every instruction of a list fits the witness and has the effect its table gives. -/
def fits (f : Iss → State → Instr → Option State) (l : List Instr) : Bool :=
  l.all fun i => decide (Fit wit i) && (f (issOf wit 0 i) wit i).isSome

def scalarList : List Instr :=
  [.add none 1 2 3 0 false, .sub none 1 2 3 0 false, .mul none 1 2 3 0 false, .and none 1 2 3 0 false, .or none 1 2 3 0 false,
   .xor none 1 2 3 0 false, .andn none 1 2 3 0 false, .shl none 1 2 3 0 false, .shr none 1 2 3 0 false, .sra none 1 2 3 0 false,
   .rot none 1 2 3 0 false, .mulh none 1 2 3 0 false true, .div none 1 2 3 0 false true, .rem none 1 2 3 0 false true,
   .min none 1 2 3 0 false true, .max none 1 2 3 0 false true, .clz 1 2 0 false, .popc 1 2 0 false, .cmp none 1 0 2 3 0 false true,
   .sel none 1 2 3 1 false, .ldi 1 5, .ldiExt 5 1, .ldiHi 5 1, .pand 1 2 3 false false, .por 1 2 3 false false, .pxor 1 2 3 false false,
   .pnot 1 2 false]
theorem wit_ScalarResults : fits (fun j s i => (scalarRes j.regs i).map (j.emitAny · s)) scalarList = true := by decide +kernel

def specialList : List Instr := [.srd 1 0x01 0 0 false, .srd 1 0x05 0 0 false, .swr 2 0x05 0 0 false, .swr 2 0x0C 3 0 false]
def addressList : List Instr :=
  [.amov 1 2 true, .aadd none 1 2 3, .aldi none 1 2 5, .astr none 1 2 3, .aget 1 2 false 0, .aclr 0xFFFF true]
theorem wit_SpecialAndAddressRegisters :
    fits specialEffect specialList = true ∧
    fits addressEffect addressList = true := by decide +kernel

/-- A read with and without its guard, and a value for selectors of each form. -/
theorem wit_SpecialAndAddressRegisters_read :
    (Fit wit (.srd 1 0x02 0 0 false) ∧ guard (regsOf wit 0) 0 false = true ∧ guard (regsOf wit 0) 0 true = false) ∧
    srReads wit 0 0x02 0 (2 + 4 * 2 + 256 * 3) ∧ srReads wit 0 0x07 8 0 ∧ srReads wit 0 0x0D 1 0 ∧
    srReads wit 0 0x0B 0 (wit.host.fack.get 0 0 &&& (wit.part 0).cfg.feat) := by
  refine ⟨by decide +kernel, ?_, ?_, ?_, ?_⟩
  · exact .inr (.inr (.inl ⟨2, 3, by decide +kernel⟩))
  · exact .inr (.inr (.inr (.inr (.inr (.inr (.inr (.inr (.inl ⟨rfl, rfl, by decide +kernel⟩))))))))
  · exact .inr (.inr (.inr (.inr (.inr (.inr (.inr (.inr (.inr (.inr (.inr (.inr (.inr (.inr ⟨rfl, by decide +kernel⟩)))))))))))))
  · exact .inr (.inr (.inr (.inr (.inr (.inr (.inr (.inr (.inr (.inr (.inr (.inr (.inl ⟨rfl, rfl⟩))))))))))))
def transferList : List Instr :=
  [.br 1, .brp 1 false 1, .brr 1, .call 1 1, .ret 1, .loop 0 0 false 8, .loop 0 0 true 8, .loopEnd 0, .endk, .eret]
def controlList : List Instr := [.nop, .trap 1, .gear 3, .gearReg 1, .lqstat 1 0, .dlchk 1 2 false, .launch 2 0]
theorem wit_ControlInstructions :
    fits transferEffect transferList = true ∧
    fits controlEffect controlList = true := by decide +kernel

def syncList : List Instr :=
  [.bwait none 1 0, .barv none 1 0 0 0, .binit none 2 4, .monwait none 0 0, .monarm 1 1, .monarm 1 2, .stamp none 0 1 4,
   .stamp none 0 2 4, .vjoin, .fence 0, .nmfence]
theorem wit_Synchronisation : fits syncEffect syncList = true := by decide +kernel

def loadList : List Instr :=
  [.ld none 1 1 3 false 0, .vld none 1 1 3 0, .vldw none 1 1 3 false 0, .vgth none 20 3 1 1 3, .pld none 1 1 0, .mfill none 0 0 1 0]
def storeList : List Instr :=
  [.st none 4 1 3 0, .st none 4 2 3 0, .vst none 3 1 3 1 0, .vstw none 6 1 0 false 0, .pst none 1 1 0, .vsct none 3 3 1 1 3]
theorem wit_LoadsAndStores :
    fits loadEffect loadList = true ∧
    fits storeEffect storeList = true := by decide +kernel

def intList : List Instr :=
  [.vadd none 20 3 3 1 3 false, .vsub none 20 3 3 1 3 false, .vmul none 20 3 3 1 3 false, .vmulh none 20 3 3 1 3 false,
   .vsadd none 20 3 3 1 3 false, .vssub none 20 3 3 1 3 false, .vmin none 20 3 3 1 3 false, .vmax none 20 3 3 1 3 false,
   .vabs none 20 3 1 3 false, .vneg none 20 3 1 3 false, .vshl none 20 3 3 1 3 false, .vshr none 20 3 3 1 3 false,
   .vsra none 20 3 3 1 3 false, .vclz none 20 3 1 3 false, .vpopc none 20 3 1 3 false]
def fpList : List Instr :=
  [.vfadd none 20 10 10 1 10, .vfsub none 20 10 10 1 10, .vfmul none 20 10 10 1 10, .vfma 0x0A000000 20 10 10 1 10,
   .vfms 0x0A000000 20 10 10 1 10, .vfnma 0x0A000000 20 10 10 1 10, .vfmin none 20 10 10 1 10, .vfmax none 20 10 10 1 10,
   .vfabs none 20 10 1 10, .vfneg none 20 10 1 10, .vfexp none 20 10 1 10, .vfscl none 20 10 3 1 10, .fexp2 none 20 10 1,
   .flog2 none 20 10 1, .frcp none 20 10 1, .frsq none 20 10 1]
theorem wit_ElementWise :
    fits (fun j s i => (intElem i).bind fun q => q.effect j s) intList = true ∧
    fits (fun j s i => (fpElem i).bind fun q => q.effect j s) fpList = true := by decide +kernel

def logicList : List Instr :=
  [.vand none 20 3 3 1 3 false, .vor none 20 3 3 1 3 false, .vxor none 20 3 3 1 3 false, .vandn none 20 3 3 0 0 false]
def compareList : List Instr := [.vcmp none 1 3 3 0 3 false, .vfcmp none 1 10 10 0 10, .vfcls none 1 10 1 10]
def convertList : List Instr :=
  [.vcvt none 20 10 3 10 0 false false, .vcvts none 20 10 3 8 10, .vquant none 20 10 0 0 10, .vquantBlk none 20 10 1 10,
   .vdeq none 20 7 10 0 0, .vdeqBlk none 20 12 10 0]
theorem wit_LogicCompareConvert :
    fits logicEffect logicList = true ∧
    fits compareEffect compareList = true ∧
    fits convertEffect convertList = true := by decide +kernel

def moveList : List Instr :=
  [.vsel none 20 3 3 1 3 false, .vmov none 20 3 0 0 false, .vbcast 20 4 1 3 false, .vbcastRow none 20 3 0 3, .vbcastCol none 20 3 0 3,
   .vins 20 4 0 3 false, .vext none 1 3 0 3 false, .vshape 3, .vtag none 20 3 10]
def shapedList : List Instr :=
  [.vrsum none 20 3 1 3 false false, .vrmax none 20 3 1 3 false true, .vrmin none 20 3 1 3 false false, .vxrd none 20 3 3 1 1 false,
   .vrot none 20 3 1 3 false]
theorem wit_MovesAndShapedReads :
    fits moveEffect moveList = true ∧
    fits shapedEffect shapedList = true := by decide +kernel

def maskList : List Instr :=
  [.vspush none 0 3 1, .vspop 0 20 1, .vspopEnd 0 20 1, .vsbal 0 1, .mand 1 2 3, .mor 1 2 3, .mxor 1 2 3, .mnot 1 2, .mpopc 1 2,
   .mfirst 1 2, .mset 1 256, .msetReg 1 4]
theorem wit_StreamsAndMasks : fits maskEffect maskList = true := by decide +kernel

def matrixList : List Instr :=
  [.mclaim 0 2 0, .mrel 0 0 0, .mlatch 0 0 false, .mpush none 0 0 8 false false, .mshift none 0 0 8 false false, .macc none 0 0 0 0 true,
   .mdrain 0 0 20 10 0 true, .mzero 0, .mfmt 8 8 false false 0 false false]
theorem wit_MatrixResults : fits matrixEffect matrixList = true := by decide +kernel

def modularList : List Instr :=
  [.qldm none 0 11, .qldk none 0 11, .qadd none 20 11 11 1 0, .qsub none 20 11 11 1 0, .qmul none 20 11 11 1 0, .qmac none 11 11 11 1 0,
   .qred none 20 11 1 0, .qbfly none 11 4 11 1 0, .qibfly none 11 4 11 1 0, .qcvtQ64I64 none 20 4 1 0, .qcvtI64Q64 none 20 11 1 0,
   .bperm none 20 3 1 0 false, .bpermi none 20 3 0 false, .vxperm none 20 3 3 1 false]
theorem wit_ModularResults : fits modularEffect modularList = true := by decide +kernel

def copyList : List Instr := [.seqlv none 0 0 4, .seqgo 1 2 0, .tmov 1 9 0 0, .mcast 1 1 2 0 0]
def channelList : List Instr := [.send 0 3 0, .sendMem 0 1 0, .recv none 1 20 0 3 0, .recvMem none 1 1 0 0]
def atomList : List Instr := [.atom 0 1 1 4 0, .atom 0 1 2 4 0, .atomr 0 1 3 4 0, .shalloc 4 5 false, .shfree 3 5]
theorem wit_CopiesChannelsAtomics :
    fits copyRowEffect copyList = true ∧
    fits channelEffect channelList = true ∧
    fits atomEffect atomList = true := by decide +kernel

def descList : List Instr := [.nmcmd 6 0, .bndset 0 0 4 0 false, .ctset 0 8, .coll 7 0, .pref 2 0]
def privList : List Instr :=
  [.srdp 1 0x41 0, .srdp 1 0x01 0, .swrp 4 0x41 0, .swrp 0 0x05 0, .swrp 4 0x0C 0, .tlbinvPage 2 0, .tlbinvAll 0, .tlbinvWb 2 0, .ctxsvCtx 4 2 0, .ctxsvCore 4 2 0,
   .ctxldCtx 4 2 0, .ctxldCore 4 2 0, .trcctlOff, .trcctlRec 2, .trcctlBind 2, .idle]
theorem wit_DescriptorsAndPrivileged :
    fits descEffect descList = true ∧
    fits privEffect privList = true := by decide +kernel

/-! ### Witnesses of the other statements on the step, traps, bundles and single rules -/

/-- The witness with what a statement asks of it besides. -/
def user : State := wit.modCtx 0 0 fun k => { k with level := 0 }
def regsWith (f : Regs → Regs) : State := wit.modRegs 0 0 f
/-- A word decodes to an instruction. -/
def decodes (slot w : Nat) (e : Option Nat) (i : Instr) : Bool :=
  match decodeSyl slot w e with
  | .ok j => decide (j = i)
  | .error _ => false
def fetches (s : State) (i : Instr) : Bool :=
  match fetchBundle s 0 0 (s.ctx 0 0).regs.pc with
  | .ok j => decide (j = i)
  | .error _ => false
def isNext (o : Out) : Bool := match o with | .next _ => true | _ => false

def origin : Where := ⟨0, 0, 0, 0⟩
def stepping : State := wit.modCtx 0 0 fun k => { k with stepPending := true }
/-- A partition whose trap queue has 32 entries at 4096. -/
def queued : State := user.modPart 0 fun q => { q with tqctl := 1 + 2 * 5, tqbase := 4096 }
/-- A pending transfer in the delay bundles. -/
def pending (p : PendKind) (n : Nat) : State :=
  (regsWith fun r => { r with pend := some ⟨p, n⟩ }).modCtx 0 0 fun k => { k with sstat := 1 + 3 * 2 ^ 10 }
/-- A `NOP` may issue in a delay bundle, with nothing else of the context under way. -/
def inDelay (p : PendKind) (n : Nat) : Bool :=
  let s := pending p n
  decide (Ready s 0 .nop ∧ (regsOf s 0).pend = some ⟨p, n⟩ ∧ (regsOf s 0).inflight = [] ∧ (regsOf s 0).xfers = [] ∧
    (ctxOf s 0).seg = none ∧ (ctxOf s 0).dep = none ∧ (regsOf s 0).rep = 0 ∧ NoLoopEnd s 0 .nop ∧ bits (ctxOf s 0).sstat 10 2 ≠ 0)
theorem wit_MemoryCanonicalKept : MemOk base ∧ isNext (step base) = true :=
  ⟨⟨by decide +kernel, fun _ h => (nomatch (show (none : Option Snap) = some _ from h)),
    fun _ h => (nomatch (show (none : Option Snap) = some _ from h))⟩, by decide +kernel⟩
theorem wit_RoundTrip :
    (Instr.add none 3 2 4 0 false).wf = true ∧ (Instr.add none 3 2 4 0 false).encode = some (0x000C2100, none) ∧
    mapOfSlot 2 = (Instr.add none 3 2 4 0 false).map ∧ (Instr.vspop 0 1 2).v1Only = true ∧ (Instr.vspop 0 1 2).wf = true ∧
    mapOfSlot 6 = (Instr.vspop 0 1 2).map := by decide +kernel
theorem wit_DecodeSound : decodes 2 0x000C2100 none (.add none 3 2 4 0 false) = true := by decide +kernel
theorem wit_RoundTripBundle :
    (Instr.bundleIssue 0 false false false [(1, 0x000C2100, none)]).wf = true ∧
    encodeBundle (.bundleIssue 0 false false false [(1, 0x000C2100, none)]) = some [0x10000000, 0x000C2100] := by decide +kernel
theorem wit_StepRunsFetched :
    (let s : State := { base with cur := agentsTurn }
     decide (s.inputs = [] ∧ s.powered = true ∧ (dueFirst s).isNone ∧ nextCore s = some 0 ∧ (coreFirst base 0).isNone ∧
       issuer base 0 = some 0 ∧ textPaused base 0 0 = false) &&
     fetches base (.bundleIssue 0 false false false [(0, 0, none)])) = true := by decide +kernel
/-- A loop's body in the loop buffer, of which the bundle at its start, or the entry that it names, has been fetched. -/
def inBuffer (s : State) (off : Nat) : State :=
  (s.modRegs 0 0 fun r => { r with loops := [(0, ⟨true, 2, 0, 16, 0⟩)] }).modCore 0 fun k => { k with pin := some (0, 16, [off]) }
theorem wit_StepRunsFetched_pinned :
    (let u := inBuffer base 0
     let s : State := { u with cur := agentsTurn }
     decide (s.inputs = [] ∧ s.powered = true ∧ (dueFirst s).isNone ∧ nextCore s = some 0 ∧ (coreFirst u 0).isNone ∧
       issuer u 0 = some 0 ∧ pinned u 0 0 (u.ctx 0 0).regs.pc = true ∧ pinned base 0 0 (base.ctx 0 0).regs.pc = false) &&
     fetches u (.bundleIssue 0 false false false [(0, 0, none)])) = true := by decide +kernel
theorem wit_GoesOnUntilPowerRemoval :
    base.powered = true ∧ isNext (step base) = true ∧ isNext (step { base with powered := false }) = false := by decide +kernel

/-- `IDLE` and a barred `LAUNCH`, also with an operand out of its range; a privileged opcode with a reserved bit set. -/
theorem wit_PrivilegeTrap :
    issuer user user.cur = some 0 ∧ (ctxOf user 0).level = 0 ∧
    ([Instr.idle, .launch 2 0, .launch 2 9, .srdp 1 0x7F 0].all fun i => decide (bkptOf (ctxOf user 0) (sole user 0 i) = none ∧
      ControlOk user 0 i ∧ barred user i = true)) = true ∧
    (match decodeSyl 0 0x67000001 none with | .error .reserved => true | _ => false) = true ∧
    breakCause (ctxOf user 0) (sylsOf (regsOf user 0) false [(0, 0x67000001, none)] none) = none ∧
    (ctxOf wit 0).level = 1 ∧ issuer wit wit.cur = some 0 := by decide +kernel
theorem wit_FeatureTrap :
    (let s : State := { wit with host := { wit.host with fack := [] } }
     let i : Instr := .qadd none 20 11 11 1 0
     decide (issuer s s.cur = some 0 ∧ bkptOf (ctxOf s 0) (sole s 0 i) = none ∧ (opOf i).isSome ∧ ((opOf i).all fun o => o.brk.isNone) ∧
    barred s i = false ∧ ControlOk s 0 i ∧ ((opOf i).bind (needsFeat i.slot)) = some 0 ∧ s.hasFeat (s.partOf s.cur) 0 = false)) = true := by
  decide +kernel
theorem wit_ControlPlaceTrap :
    (let s := regsWith fun r => { r with pend := some ⟨.untaken, 1⟩ }
     let u := regsWith fun r => { r with loops := [(0, ⟨true, 2, 0, 8, 0⟩)] }
     decide (issuer s s.cur = some 0 ∧ bkptOf (ctxOf s 0) (sole s 0 (.br 1)) = none ∧ Sys2Proof.Machine.control (.br 1) = true ∧
    (regsOf s 0).pend ≠ none ∧ issuer u u.cur = some 0 ∧ bkptOf (ctxOf u 0) (sole u 0 (.br 1)) = none ∧
    lastTwo u u.cur 0 ((regsOf u 0).pc + (soleHead (.br 1)).len) = true)) = true := by decide +kernel
/-- A load at an odd address is the alignment trap; a wait at a broken barrier the barrier trap, judged with its dependence. -/
theorem wit_SyllableTrapPrecise :
    (let i : Instr := .ld none 1 1 3 false 1
     let s := regsWith fun r => { r with a := [(1, BitVec.ofNat 57 (windowBase + 1))] }
     decide (Ready s 0 i ∧ ((opOf i).all fun o => o.brk.isNone && decide (o.wait (issOf s 0 i) s = .ok) &&
      (match o.run (issOf s 0 i) s with
        | .error (.trap q) => q.code == 0x13
        | _ => false))) &&
     (let i : Instr := .bwait none 2 4
      decide (Ready wit 0 i ∧ ((opOf i).all fun o => o.brk.isNone && (match o.wait (issOf wit 0 i) wit with
        | .trap q => q.code == 0x16
        | _ => false))))) = true := by decide +kernel
theorem wit_FreezeOnDependence :
    Ready wit 0 (.bwait none 1 4) ∧
    ((opOf (.bwait none 1 4)).all fun o => o.brk.isNone && decide (o.wait (issOf wit 0 (.bwait none 1 4)) wit = .dep (.barrier 1 7))) := by
  decide +kernel
theorem wit_Breakpoint :
    MayIssue wit 0 (.brk 9) ∧ ControlOk wit 0 (.brk 9) ∧ (ctxOf wit 0).stepping = false ∧
    MayIssue stepping 0 (.brk 9) ∧ ControlOk stepping 0 (.brk 9) ∧ (ctxOf stepping 0).stepping = true := by decide +kernel
/-- With the queue disabled there is no space; with 32 entries at 4096 there is. -/
theorem wit_UserCauseSuspends :
    (user.ctx 0 0).level = 0 ∧ (user.ctx 0 0).held = none ∧ (user.part 0).tqSpace = false ∧
    (let s := queued
     let u := suspendCtx (s.modCtx 0 0 fun k => { k with stepPending := false }) 0 0 6
     let r : Rec := ⟨{ code := 6 }, 0, 0, 0, 0, 0, false, origin, false⟩
     decide ((s.ctx 0 0).level = 0 ∧ (s.ctx 0 0).held = none ∧ (s.part 0).tqSpace = true ∧ (s.part 0).tqstamp = 0 ∧ (s.part 0).recHeld = [] ∧ s.partOf 0 = 0 ∧
       (s.part 0).tqbase + 64 * ((s.part 0).tqprod % 2 ^ tqLen (s.part 0).tqctl) = 4096 ∧
       walkPaused u 0 (s.part 0).cfg.control 4096 = false) &&
     (match xlateP u 0 (s.part 0).cfg.control 1 .write 4096 with
      | .ok x => decide (refuses u x.ga (r.bytes (s.part 0).tqprod) = false ∧ refused u 0 x = false ∧ x.mode ≠ 3 ∧ x.mirror = none)
      | .error _ => false)) = true := by decide +kernel
theorem wit_SupervisorCauseVectors :
    (base.ctx 0 0).level ≠ 0 ∧ (base.ctx 0 0).held = none ∧ sstatInh (base.ctx 0 0).sstat = false ∧ (base.ctx 0 0).regs.rep < 16 ∧
    (base.ctx 0 0).regs.pend = none := by decide +kernel
theorem wit_SupervisorCauseVectors_pending :
    [PendKind.jump 40, .eret, .untaken, .loopEnter 3, .loopEnd 3].all (fun p =>
      let s := base.modRegs 0 0 fun r => { r with pend := some ⟨p, 3⟩ }
      decide ((s.ctx 0 0).level ≠ 0 ∧ (s.ctx 0 0).held = none ∧ sstatInh (s.ctx 0 0).sstat = false ∧ (s.ctx 0 0).regs.rep < 16 ∧
        (s.ctx 0 0).regs.pend = some ⟨p, 3⟩)) = true := by decide +kernel
theorem wit_ReturnUndoesVector :
    (let k : Ctx := { Ctx.reset with regs := { Regs.start with pc := 0x40, rep := 3, pend := some ⟨.loopEnter 3, 2⟩ } }
     let j : Ctx := { Ctx.reset with regs := { Regs.start with pend := some ⟨.jump (2 ^ 32 - 4), 3⟩ } }
     decide (k.regs.pc < 2 ^ 32 ∧ k.regs.rep < 16 ∧ k.regs.pend = some ⟨.loopEnter 3, 2⟩ ∧ (returnFrom (vector k 0x13)).regs = k.regs) &&
     decide (j.regs.pend = some ⟨.jump (2 ^ 32 - 4), 3⟩ ∧ (returnFrom (vector j 0xFF)).regs = j.regs)) = true := by
  decide +kernel
theorem wit_ExceptionReturn :
    bitsAt 0x60000000 24 7 = 0x60 ∧ (Ready base 0 .eret ∧ (ctxOf base 0).sstat % 2 = 0) ∧
    (Fit wit .eret ∧ (ctxOf wit 0).sstat % 2 = 1) ∧
    inDelay .eret 1 = true ∧ inDelay .eret 2 = true ∧
    (let s := regsWith fun r => { r with pend := some ⟨.eret, 1⟩ }
     decide (Ready s 0 .nop ∧ bits (ctxOf s 0).sstat 10 2 = 0 ∧ (ctxOf s 0).sstat.testBit 9 = false)) = true := by
  decide +kernel
def pair : List (Nat × Nat × Option Nat) := [(1, 0x000C2100, none), (2, 0x10042000, none)]
def pairSyls : List Syl := sylsOf (regsOf wit 0) false pair none
def pairHead : Head := ⟨bundleLen (.bundleIssue 0 false false false pair), 0, false, false, false, none⟩
def pairIss : Syl → Iss := mkIss wit wit.cur 0 pairHead pairSyls (bndsOf (regsOf wit 0) pair)
def dictionary : State := wit.modCtx 0 0 fun k => { k with info := { k.info with dictVa := 0, dictN := 1 } }
def stickyAdd : Sticky := ⟨0x000C2100, none, 0, none, 0⟩
def opened : State := wit.modCtx 0 0 fun k =>
  { k with seg := some ⟨k.regs, [], [], [], [], [], [], 0, false, 0⟩ }
theorem wit_BundleCommits :
    issuer wit wit.cur = some 0 ∧ breakCause (ctxOf wit 0) pairSyls = none ∧ illegalBundle wit wit.cur 0 pairHead pairSyls = false ∧
    (∀ y ∈ pairSyls, sylFault wit wit.cur 0 y = none) ∧ firstDep wit pairIss pairSyls = none ∧ residueOf wit wit.cur 0 pairSyls = none ∧
    (runAll pairIss wit pairSyls).toOption.isSome ∧ (runAll pairIss (openSegment wit wit.cur 0) pairSyls).toOption.isSome ∧
    pairSyls.length = 2 ∧
    (let s := regsWith fun r => { r with sticky := [(1, stickyAdd)] }
     decide (issuer s s.cur = some 0 ∧ Calm s 0 ∧ (regsOf s 0).rep = 0 ∧ (regsOf s 0).sticky = [(1, stickyAdd)] ∧
       (scalarRes (regsOf s 0) (.add none 3 2 4 0 false)).map (·.1) = some 1 ∧
       breakCause (ctxOf s 0) (sylsOf (regsOf s 0) true [] none) = none ∧ residueOf s s.cur 0 (sylsOf (regsOf s 0) true [] none) = none ∧
       (regsOf s 0).loops = [])) = true ∧
    (Calm wit 0 ∧ (regsOf wit 0).idleLeft = 0 ∧ (regsOf wit 0).loops = []) ∧
    (issuer opened opened.cur = some 0 ∧ breakCause (ctxOf opened 0) [] = none ∧ (ctxOf opened 0).seg.isSome ∧
      (regsOf opened 0).inflight = []) ∧
    (let s := dictionary
     decide (issuer s s.cur = some 0 ∧ fetchPaused s s.cur 0 96 = false ∧ (ctxOf s 0).info.dictVa + 96 * 0 = 0 ∧
       (fetchEntry s s.cur 0 0).toOption = some [(0, 0, none)])) = true := by
  decide +kernel
theorem wit_BundleCommits_pinned :
    (let s := inBuffer dictionary 1
     decide (issuer s s.cur = some 0 ∧ (fetchEntry s s.cur 0 0).toOption = some [(0, 0, none)] ∧
       pinned s s.cur 0 ((regsOf s 0).pc + 1) = true ∧ pinned dictionary dictionary.cur 0 ((regsOf dictionary 0).pc + 1) = false)) = true := by
  decide +kernel
theorem wit_IdleBundle :
    issuer wit wit.cur = some 0 ∧ breakCause (ctxOf wit 0) [] = none ∧ Calm wit 0 ∧
    (∀ l < 4, ((regsOf wit 0).loop l).act = true → ((regsOf wit 0).loop l).exit ≠ (regsOf wit 0).pc + 4) ∧ (regsOf wit 0).rep = 0 ∧
    (regsOf wit 0).idleLeft = 0 := by
  decide +kernel
theorem wit_ScalarFrame :
    Fit wit (.add none 1 2 3 0 false) ∧ (scalarRes (regsOf wit 0) (.add none 1 2 3 0 false)).isSome ∧
    Fit wit (.div none 1 2 3 0 false true) ∧ (scalarRes (regsOf wit 0) (.div none 1 2 3 0 false true)).isSome := by decide +kernel
theorem wit_TrapRequest :
    Fit user (.trap 5) ∧ (ctxOf user 0).level = 0 ∧ (ctxOf user 0).held = none := by decide +kernel
theorem wit_StoreFrame :
    (let ok := fun (i : Instr) => decide (Fit wit i ∧ (storeEffect (issOf wit 0 i) wit i).isSome ∧ (storeAccesses (issOf wit 0 i) i).isSome)
     ok (.st none 4 1 3 0) && ok (.vst none 3 2 0 0 0) && ok (.vsct none 3 3 1 1 3)) = true := by decide +kernel
theorem wit_StoreLands :
    (let f := fun (s : State) => s.modRegs 0 0 fun r => { r with inflight := [⟨0, 1, .store false [(coreBase 0, 5), (coreBase 0, 6)]⟩] }
     let s := f wit
     let u := f opened
     decide (Ready s 0 .nop ∧ (regsOf s 0).inflight = [⟨0, (regsOf s 0).ltime + 1, .store false [(coreBase 0, 5), (coreBase 0, 6)]⟩] ∧
    (regsOf s 0).xfers = [] ∧ (ctxOf s 0).seg = none ∧ (regsOf s 0).pend = none ∧ (ctxOf s 0).dep = none ∧ s.poison = []) &&
     decide (Ready u 0 .nop ∧ (regsOf u 0).inflight = [⟨0, (regsOf u 0).ltime + 1, .store false [(coreBase 0, 5), (coreBase 0, 6)]⟩] ∧
    (regsOf u 0).xfers = [] ∧ (ctxOf u 0).seg.map (·.undo) = some [] ∧ (regsOf u 0).pend = none ∧ (ctxOf u 0).dep = none ∧ u.poison = [])) =
      true := by
  decide +kernel
theorem wit_VectorFrame :
    (regsOf wit 0).bd = [] ∧
    (let ok := fun (f : Iss → State → Instr → Option State) (i : Instr) => decide (Fit wit i) && (f (issOf wit 0 i) wit i).isSome
     ok (fun j s i => (intElem i).bind fun q => q.effect j s) (.vadd none 20 3 3 1 3 false) && ok moveEffect (.vshape 3) &&
     ok maskEffect (.vspush none 0 3 1) && ok shapedEffect (.vrot none 20 3 1 3 false)) = true := by
  decide +kernel
theorem wit_VectorFrame_no_flag_mode : ∀ n, ((regsOf wit 0).bd.get Bound.zero n).mode ≠ 1 := fun n => by show (KV.get Bound.zero [] n).mode ≠ 1; exact (by decide : (0:Nat) ≠ 1)
theorem wit_MemoryFrame :
    (let i : Instr := .vst none 3 1 3 1 0
     decide (Ready wit 0 i ∧ Calm wit 0 ∧ privileged i = false ∧ (syllableEffect (issOf wit 0 i) wit i).isSome)) = true := by decide +kernel
theorem wit_CountBits :
    Fit wit (.clz 1 4 0 false) ∧ guard (regsOf wit 0) 0 false = true ∧ Fit wit (.popc 1 4 0 true) ∧ guard (regsOf wit 0) 0 true = false := by
  decide +kernel
theorem wit_DivisionTruncates :
    guard (regsOf wit 0) 0 false = true ∧ Ready wit 0 (.div none 1 4 4 0 false false) ∧ Ready wit 0 (.rem none 1 4 4 0 false true) ∧
    divW false (BitVec.ofInt 64 (-7)) 2 = BitVec.ofInt 64 (-3) ∧ remW false (BitVec.ofInt 64 (-7)) 2 = BitVec.ofInt 64 (-1) := by
  decide +kernel
/-- PASSED is 1: phase 0 has passed, phase 1 and phase 7 have not; barrier 2 is not armed, barrier 3 is broken. -/
theorem wit_BarrierWait :
    (∀ g ∈ [0, 4], Ready wit 0 (.bwait none 1 g)) ∧ Ready wit 0 (.bwait (some 1) 1 0) ∧
    ((wit.core 0).bars.get Barrier.start 1).brk = false ∧ ((wit.core 0).bars.get Barrier.start 1).exp ≠ 0 ∧
    ((1 : Int) - 0 - 1) % 2 ^ 32 < 2 ^ 31 ∧ ¬((1 : Int) - 1 - 1) % 2 ^ 32 < 2 ^ 31 ∧
    Ready wit 0 (.bwait none 2 0) ∧ ((wit.core 0).bars.get Barrier.start 2).brk = false ∧ ((wit.core 0).bars.get Barrier.start 2).exp = 0 ∧
    (let s := wit.modCore 0 fun k => { k with bars := [(3, ⟨1, 0, 0, 0, true, []⟩)] }
     decide (Ready s 0 (.bwait none 3 0) ∧ ((s.core 0).bars.get Barrier.start 3).brk = true)) = true := by decide +kernel
theorem wit_LoopEndClears :
    Fit wit (.loopEnd 3) ∧
    inDelay (.loopEnd 1) 1 = true ∧ inDelay (.loopEnd 1) 2 = true ∧
    (let at_ := fun (n : Nat) => regsWith fun r => { r with loops := [(1, ⟨true, n, 0, 8, 2⟩)] }
     let enter := fun (n : Nat) => regsWith fun r => { r with loops := [(2, ⟨false, n, 8, 40, 1⟩)], pend := some ⟨.loopEnter 2, 1⟩ }
     [1, 2].all (fun n => decide (Ready (at_ n) 0 .nop ∧ Calm (at_ n) 0 ∧ ((regsOf (at_ n) 0).loop 0).act = false ∧
       ((regsOf (at_ n) 0).loop 1).act = true ∧ ((regsOf (at_ n) 0).loop 1).exit = (regsOf (at_ n) 0).pc + 8 ∧
       [2, 3].all (fun k => !((regsOf (at_ n) 0).loop k).act) = true)) &&
     [0, 3].all (fun n => decide (Ready (enter n) 0 .nop ∧ (regsOf (enter n) 0).pend = some ⟨.loopEnter 2, 1⟩ ∧
       (regsOf (enter n) 0).inflight = [] ∧ (regsOf (enter n) 0).xfers = [] ∧ (ctxOf (enter n) 0).seg = none ∧
       (ctxOf (enter n) 0).dep = none ∧ NoLoopEnd (enter n) 0 .nop ∧ ((regsOf (enter n) 0).loop 2).remain = n))) = true := by decide +kernel
theorem wit_TileZeroed : Fit wit (.mzero 0) ∧ claimed wit wit.cur 0 1 0 = true := by decide +kernel

/-! ### Witnesses of the statements on events -/

/-- An operation of context 0 of core 0, granted at every port on its way, and the witness with it. -/
def opAs (k : OpK) : Async :=
  { id := 7, ord := 7, core := 0, ctx := 0, task := 0, seq := 0, part := 0, level := 1, j := 0, at_ := origin, after := [],
    unacked := false, dst := 0, mir := none, uncounted := false, page := (0, 0), kind := k
    grants := egressPort :: (List.range 3).map (slotKey 0) ++ (List.range 12).map stackPort }
def having (k : OpK) : State := { wit with ops := [opAs k] }
def waits (k : OpK) : Bool := decide (Pending (having k) 7 (opAs k) k)
def cword0 : CWord := ⟨0, 0, false, false, 0, 0, 0, 0, none, none, []⟩
def rel0 : Rel := ⟨0, 0, [], false, []⟩
def rec0 : Rec := ⟨{ code := 6 }, 0, 0, 0, 0, 0, false, origin, false⟩
def entry0 : IntakeE := ⟨8192, 1, 0, 0, 0, 0, 0, 0, 1⟩
def task0 (st : Nat) : Task :=
  { id := 3, part := 0, seq := 0, pri := 0, desc := 0, args := 0, gear := 0, nc := 1, nd := 1, group := 0, parts := [⟨0, 1, st⟩],
    info := TaskInfo.none, sgear := 0, slotg := 1, bars := [], chans := [], done := cword0, launch := entry0,
    failed := false, causes := [], state := 2 }
def other (f : Ctx → Ctx) : State := wit.modCtx 0 1 f

theorem wit_ContextEvents :
    (let s := other fun k => { k with status := .frozen, dep := some (.barrier 1 0) }
     let u := other fun k => { k with status := .frozen, dep := some (.idle 0 0), obs := 1 }
     let v := other fun k => { k with status := .suspended }
     let i := other fun k => { k with status := .suspended, dep := some (.idle 0 0) }
     let e := other fun k => { k with status := .suspended, regs := { k.regs with pend := some ⟨.endk, 0⟩ } }
     let w := other fun k => { k with status := .ready }
     let stopped : State := { v with power := { v.power with emergency := true } }
     decide ((s.ctx 0 1).status = .frozen ∧ depMet s 0 1 (.barrier 1 0) = true ∧ (u.ctx 0 1).status = .frozen ∧
       (u.ctx 0 1).dep = some (.idle 0 0) ∧ depMet u 0 1 (.idle 0 0) = true ∧ (v.ctx 0 1).status = .suspended ∧
       (v.ctx 0 1).busy = false ∧ (v.ctx 0 1).ends = false ∧ (i.ctx 0 1).status = .suspended ∧ (i.ctx 0 1).busy = false ∧
       (i.ctx 0 1).dep.any Dep.isIdle = true ∧ (e.ctx 0 1).ends = true ∧ (w.ctx 0 1).status = .ready ∧ (w.ctx 0 1).busy = false ∧
       startsHeld v = false ∧ startsHeld stopped = true)) = true := by
  decide +kernel
theorem wit_RecordEvents :
    (let s := queued.modCtx 0 1 fun k => { k with held := some rec0 }
     let u := wit.modCtx 0 0 fun k => { k with deferred := [rec0] }
     let g := opened.modCtx 0 0 fun k => { k with deferred := [{ rec0 with cause := { code := 0x37, line := some 5 } }] }
     let t : Task := { task0 3 with causes := [rec0], state := 3 }
     let v : State := { queued with tasks := [t] }
     let w := wit.modPart (kloty 1) fun q => { q with kq := [rec0] }
     let late := s.modPart 0 fun q => { q with recHeld := [{ rec0 with core := 0, ctx := 1 }] }
     decide ((s.ctx 0 1).held = some rec0 ∧ (postRecord s 0 rec0).toOption.isSome ∧ atBoundary u 0 0 = true ∧ (u.ctx 0 0).deferred = [rec0] ∧
       (u.ctx 0 0).seg = none ∧ v.tasks.find? (fun t => t.id == 3) = some t ∧ t.causes = [rec0] ∧ (postRecord v 0 rec0).toOption.isSome ∧
       (w.part (kloty 1)).kq = [rec0] ∧ (s.part (s.partOf 0)).recHeld = [] ∧ (s.part rec0.part).recHeld = [] ∧
       (late.ctx 0 1).held = some rec0 ∧ late.isSuper 0 1 = false ∧ (late.part rec0.part).recHeld.any (Rec.waits 0 1 false) = true) &&
     decide (atBoundary g 0 0 = true ∧ (g.ctx 0 0).seg.isSome ∧ ((g.ctx 0 0).deferred.map fun r => r.cause.line) = [some 5])) = true := by
  decide +kernel
theorem wit_RegisterWrites :
    tqctlBad (wit.part 0) 11 = false ∧ (11 : Nat).testBit 0 = true ∧ (wit.part 0).tqctl.testBit 0 = false ∧ tqctlBad (wit.part 0) 1 = true ∧
    tqconsBad (wit.part 0) 0 = false ∧ tqconsBad (wit.part 0) 1 = true ∧ (3 : Nat) % 8 < 4 ∧ (4 : Nat) % 8 ≥ 4 ∧
    (wit.ctx 0 0).status = .ready ∧ (wit.core 0).active = some 0 ∧ 0 < (wit.ctx 0 0).level ∧ (wit.ctx 0 1).status = .empty ∧
    selTarget 1 ≠ (0, 0) := by decide +kernel

/-- Where an access of an operation leads. -/
def leads (s : State) (a : Async) (k : AccKind) (va : Nat) : Option Xl :=
  match route s a k va with
  | .ok x => some x
  | _ => none
def page : Xl := (leads wit (opAs (.store [])) .write 4096).getD { ga := 0, cls := 9 }
theorem wit_AccessesPerform :
    (let b : List (Nat × Byte) := [(4096, 1), (4100, 2)]
     let writes := fun (k : OpK) => waits k && (match k.writes with
       | some (bytes, _) => decide (leads (having k) (opAs k) .write (lowest bytes) = some page ∧
           partLines (counted (having k) (opAs k) (lowest bytes) page) (bytes.map fun b => (page.ga + (b.1 - lowest bytes), b.2)) = []) &&
         (endpoint (having k) (opAs k) page (lowest bytes) true false).toOption.isSome
       | none => false)
     let m := (having (.monRead 1 4096)).modCtx 0 0 fun c => { c with mons := [(1, ⟨true, 0, none, none, some 7⟩)] }
     let z : OpK := .atom false 4096 0 1 5 0 [] none
     let zr : OpK := .atom false 4096 0 1 5 0 [coreBase 0] none
     writes (.store b) && writes (.stamp 4096 9 rel0) && writes (.arrive 1 0 [] rel0 (some (4096, 9, rel0))) &&
     decide (page.cls ≠ 5 ∧ page.cls ≠ 6 ∧ page.cls ≠ 7 ∧ page.mode ≠ 3 ∧ page.mirror = none ∧ refused wit 0 page = false ∧ wit.poison = []) &&
     [z, zr].all (fun k => waits k && decide (leads (having k) (opAs k) .atomic 4096 = some page) &&
       (endpoint (having k) (opAs k) page 4096 true true).toOption.isSome) &&
     decide (Pending m 7 (opAs (.monRead 1 4096)) (.monRead 1 4096) ∧ m.holder (opAs (.monRead 1 4096)) = true ∧
       ((m.ctx 0 0).mons.get Monitor.start 1).pendId = some 7 ∧ (leads m (opAs (.monRead 1 4096)) .read 4096) = some page ∧
       (endpoint m (opAs (.monRead 1 4096)) page 4096 false false).toOption.isSome)) = true := by
  decide +kernel
/-- Device memory of module 1 behind a page of the partition's kernel map, over port 2; its acknowledgement; a page that is not mapped. -/
def linked : State :=
  let s := wit.setPort 2 ⟨[(0, ⟨true, false, 0, 0⟩)], 1, 0, 0⟩
  let s : State := { s with fabric := { s.fabric with routes := [(1, [2])] } }
  (s.modPart 0 fun q => { q with cfg := { q.cfg with peers := [(5, 1, 1)] } }).modCore 0 fun k =>
    { k with tlb := { loadedPage with va := 0x10000, ga := farBase 1 } :: k.tlb }
theorem wit_AccessesPerform_far :
    (let k : OpK := .store [(0x10000, 1)]
     let a := opAs k
     let s : State := { linked with ops := [a] }
     let far : Async := { opAs (.store [(shelfBase, 1)]) with unacked := true, dst := farBase 1 }
     let beat : Async := { opAs (.beat ⟨1, 0, 0, 0⟩ ⟨0, 0, false, 0, 0, 0, 0⟩ false) with unacked := true, dst := farBase 1 }
     let t : State := { linked with ops := [far] }
     let q : OpK := .store [(0x4000000, 1)]
     (match a.posted, leads s a .write 0x10000 with
      | some p, some x => decide (Pending s 7 a a.kind ∧ p.va = 0x10000 ∧ p.bar s x = none ∧ x.cls = 6 ∧ destOf x.ga = some 1)
      | _, _ => false) &&
     decide (t.findOp 7 = some far ∧ t.afterDone far = true ∧ destOf far.dst = some 1 ∧ t.fabric.unreach.contains 1 = false ∧
       (livePort t 1).isSome = true ∧ far.posted.map (·.va) = some shelfBase ∧ refused t 0 { ga := farBase 1, cls := 5 } = false ∧
       beat.posted.isNone ∧ destOf beat.dst = some 1) &&
     waits q && (match route (having q) (opAs q) .write 0x4000000 with | .bad _ => true | _ => false)) = true := by
  decide +kernel
theorem wit_AccessesPerform_ownStamp :
    (let k : OpK := .ownStamp (cells (coreBase 0 + 8) [1, 2, 3, 4]) rel0
     decide (waits k = true ∧ ownSegment (having k) (opAs k) 0 = none ∧ partLines (having k) (cells (coreBase 0 + 8) [1, 2, 3, 4]) = [])) =
      true := by decide +kernel
theorem wit_ArrivalDelivered :
    (let k : OpK := .arrive 1 1 [0, 1] rel0 none
     let g : Task := { task0 1 with group := 5 }
     let sig : State := { having (.signal 0 5 1 0) with tasks := [g] }
     decide (waits k = true ∧ arrivalTurn (having k) (opAs k) 0 = true) &&
     decide (Pending sig 7 (opAs (.signal 0 5 1 0)) (.signal 0 5 1 0) ∧ groupTask sig 0 5 = some g) &&
     decide ((Barrier.mk 3 5 0 0 false []).cnt0 + 1 < 3 ∧ (Barrier.mk 1 5 0 0 false []).cnt0 + 1 = 1 ∧ (9 : Nat) ≠ 5 ∧
       (9 : Nat) ≠ (5 + 1) % 2 ^ 32 ∧ Barrier.start.exp = 0 ∧ (Barrier.mk 2 5 1 2 false []).cnt0 + 1 = 2 ∧
       (Barrier.mk 2 5 1 2 false []).cnt1 = 2 ∧ (Barrier.mk 2 5 0 1 false []).cnt0 < 2 ∧ (Barrier.mk 2 5 0 1 false []).cnt1 < 2)) = true := by decide +kernel
theorem wit_CopyEvents :
    (let e : Elem := ⟨4096, some 8192, 64, [], true, true, false⟩
     let w0 : Slow := ⟨0, 0, 0, 0, 0⟩
     let k : OpK := .copy [e] false cword0 w0 false
     let done : OpK := .copy [] false cword0 w0 true
     let ask : OpK := .copy [e] false cword0 ⟨1, 8192, 0, 0, 0⟩ true
     let ring := (having ask).modPart 0 fun q => { q with ringBase := 0x6000, ringLen := 4, tcbOk := true, cfg := { q.cfg with tcb := 0x7000 } }
     let told : OpK := .copy [e] false cword0 ⟨2, 8192, 0, 0x6010, 0⟩ true
     let reply := fun (n : Byte) => { having told with mem := [(0x6010, n)] }
     let tile : OpK := .mcast 8192 windowBase 64 [0, 1] none cword0 w0
     let sent : OpK := .mcast 8192 windowBase 64 [0, 1] (some (List.replicate 64 3)) cword0 w0
     decide (waits k = true ∧ w0.free = true ∧ copyTurn (having k) (opAs k) = true ∧
       (moveCopy (having k) (opAs k) [e] false cword0 w0).isSome ∧ waits done = true ∧ xferDone (having done) (opAs done) = true) &&
     decide (Pending ring 7 (opAs ask) ask ∧
       (pageRequest ring (opAs ask) ⟨1, 8192, 0, 0, 0⟩ fun w => .copy [e] false cword0 w true).isSome ∧
       Pending (reply 1) 7 (opAs told) told ∧ (readVa (opAs told) (reply 1) (wit.part 0).cfg.control 1 0x6010 8).2 = some 1 ∧
       (readVa (opAs told) (reply 2) (wit.part 0).cfg.control 1 0x6010 8).2 = some 2 ∧
       (lostCause (reply 1) (wit.part 0).cfg.control 1 .read 0x6010).isNone ∧
       ((reply 1).part 0).ringHeld.contains (requestBytes (opAs told) ⟨2, 8192, 0, 0x6010, 0⟩) = false ∧
       waitsIn (reply 1) 0 (wit.part 0).cfg.control 0x6010 8 = false) &&
     decide (waits tile = true ∧ copyTurn (having tile) (opAs tile) = true ∧ (readTile (opAs tile) (having tile) 8192 1).toOption.isSome ∧
       waits sent = true ∧ [0, 1].filter (· != 0) ≠ [] ∧ cword0.ba = false ∧ ownSegment (having sent) (opAs sent) 0 = none)) = true := by decide +kernel
/-- A group of a copy to a page and of a scheduled one to the own scratchpad: sources in either, read, reached and written. -/
theorem wit_CopyEvents_group :
    (let e : Elem := ⟨4096, some 8192, 64, [], true, true, false⟩
     let own : Elem := ⟨4096, some (windowBase + 64), 64, [], true, true, false⟩
     let w0 : Slow := ⟨0, 0, 0, 0, 0⟩
     let k : OpK := .copy [e] false cword0 w0 true
     let m : OpK := .copy [{ e with dst := windowBase + 64 }] true cword0 w0 true
     let a := opAs k
     let s := having k
     decide (waits k = true ∧ crossing s a [e] = false ∧ (inTheWay s a [e]).isNone ∧
       (nextChunks (sameDst s a false) [e]).1 = [e] ∧ s.poison = [] ∧ inScratch (windowBase + 64) 64 = true ∧
       (scratchGas true (s.zmapOf a) a.core 64 (windowBase + 64)).isSome ∧ (elemBytes s a own).toOption.isSome ∧ inScratch 8192 64 = false) &&
     (match readGroup a s [e], reach s a .read 8192 with
      | .ok (u, l), .ok y => decide (l.flatMap (fun p => cells p.1 p.2) ≠ [] ∧ (l.map fun p => (p.1, p.2.length)) = [(64 * 64, 64)]) &&
          (endpoint s a y 8192 false false).toOption.isSome &&
        (match reach u a .write (64 * 64) with
         | .ok x => decide (x.mode ≠ 3 ∧ x.mirror = none) && (match endpoint u a x (64 * 64) true false with
           | .ok v => (partLines v ((l.flatMap fun p => cells p.1 p.2).map fun b => (x.ga + (b.1 - 4096), b.2))).isEmpty
           | .error _ => false)
         | _ => false)
      | _, _ => false) &&
     decide (waits m = true ∧ skidFull (having m) (opAs m) 64 = false ∧
       (readGroup (opAs m) (having m) [{ e with dst := windowBase + 64 }]).toOption.isSome)) = true := by decide +kernel
/-- A transfer with one granule, before its cycle and at it. -/
def skid (due : Nat) : State := wit.modRegs 0 0 fun r =>
  { r with ltime := 9, xfers := [⟨7, due, 0, 64, false, [⟨coreBase 0 / 64, 0, [coreBase 0, coreBase 0 + 1], [], false⟩], origin⟩] }
theorem wit_CopyEvents_transfer :
    (let pairs := cells (coreBase 0) [5, 6, 7]
     let a := opAs (.copy [] true cword0 ⟨0, 0, 0, 0, 0⟩ true)
     [20, 9].all (fun due => decide ((skid due).holder a = true ∧ ((skid due).ctx a.core a.ctx).seg = none ∧ (skid due).poison = [] ∧
       ((skid due).ctx a.core a.ctx).regs.ltime = 9 ∧
       ((skid due).ctx a.core a.ctx).regs.xfers.map (fun y => (y.id, y.due, y.dead)) = [(a.id, due, false)])) &&
     decide ((pairs.any fun b => b.1 / 64 == coreBase 0 / 64) = true ∧ (∀ b ∈ pairs, b.1 / 64 = coreBase 0 / 64))) = true := by
  decide +kernel
/-- A task of a launch group of the partition's modules, for a target set of 4. -/
theorem wit_CopyEvents_finish :
    (let s : State := { (wit.modPart 0 fun q => { q with cfg := { q.cfg with peers := [(5, 1, 1)] } }) with
       tasks := [{ task0 1 with id := 0, group := 6 }], nextId := 8 }
     let a := opAs (.copy [] false cword0 ⟨0, 0, 0, 0, 0⟩ true)
     decide (lgroupOf s a.task = 6 ∧ taskPeers s a.part (lgroupOf s a.task) 4 = [5] ∧ a.id < s.nextId ∧
       taskPeers s a.part (lgroupOf s a.task) cword0.tset = [])) = true := by decide +kernel
theorem wit_ChannelEvents :
    (let b : Beat := ⟨0, 0, false, 0, 0, 0, 0⟩
     let bind : SendBind := ⟨0, 0, 0, 0⟩
     let at_ := fun st r => { having (.beat bind b r) with tasks := [task0 st] }
     [1, 2, 3].all (fun st => decide (Pending (at_ st false) 7 (opAs (.beat bind b false)) (.beat bind b false) ∧
       partPlace (at_ st false) 0 0 0 = some ⟨0, 1, st⟩)) &&
     decide (((at_ 1 false).ctx 0 1).busy = false ∧ Pending (at_ 1 true) 7 (opAs (.beat bind b true)) (.beat bind b true) ∧
       partPlace (at_ 1 true) 0 0 0 = some ⟨0, 1, 1⟩ ∧ waits (.credit 0 0 0 1 0) = true ∧ (wit.ctx 0 0).holds = true ∧
       (wit.ctx 0 0).info.task = 0) &&
     (let s := (having (.shfree shelfBase [])).modPart 0 fun q => { q with shelf := [⟨shelfBase, 2 ^ 21, 1, none, 0, 0, 2⟩] }
      decide (waits (.shalloc (2 ^ 21) false []) = true ∧ waits (.shfree 5 []) = true ∧
        ((having (.shfree 5 [])).part 0).shelf.find? (fun e => e.base == 5) = none ∧
        Pending s 7 (opAs (.shfree shelfBase [])) (.shfree shelfBase []) ∧
        ((s.part 0).shelf.find? fun e => e.base == shelfBase).isSome ∧ (1 : Nat) % 2 ^ 21 ≠ 0))) = true := by decide +kernel
theorem wit_NearMemoryAndCollectiveEvents :
    (let d : NmDesc := ⟨1, 10, 4, 8192, 0, 0, 0, 0⟩
     let away : Async := { opAs (.nmcmd d cword0 (some 0) none) with task := 99 }
     let s : State := { wit with ops := [away] }
     let taken : OpK := .nmcmd d cword0 (some 0) (some ⟨0, [], []⟩)
     let f := having taken
     let a := opAs taken
     let far : NmDesc := { d with stat := 0x3000 }
     let own : NmDesc := { d with stat := windowBase + 0x40 }
     let off : NmDesc := { d with dst := 0x4000000 }
     decide (Pending s 7 away (.nmcmd d cword0 (some 0) none) ∧ s.holder away = false ∧ nmPaused s away d = false ∧
       (s.hbmStacks.get Stack.reset 0).paused = false ∧
       (s.hbmStacks.get Stack.reset 0).queue = [] ∧ (busyCmds (s.hbmStacks.get Stack.reset 0)).length < 64 ∧
       waits taken = true ∧ (f.hbmStacks.get Stack.reset 0).paused = false ∧ d.stat = 0 ∧ d.op ≤ 4 ∧
       (nmRanges s away d).toOption.isSome ∧ (nmRanges s away off).toOption.isNone ∧
       reach f a .write far.stat ≠ .wait ∧ f.poison = [] ∧ inScratch own.stat 8 = true ∧ inScratch far.stat 8 = false ∧
       (scratchGas true (f.zmapOf a) a.core 8 own.stat).isSome ∧ (nmRanges f a off).toOption.isNone ∧ waits (.nmfence [0] [5]) = true ∧ cmdAt (having (.nmfence [0] [5])) 5 0 = false) &&
     (match nmRanges f a d, reach f a .write far.stat with
      | .ok (dt, st), .ok x => decide (nmCount a f [] (dt ++ st) = f ∧ x.mode ≠ 3 ∧ x.mirror = none) &&
        ((dt ++ st).all fun t => !((pagedXl f a.part a.core t.va).toOption.any (·.chk))) &&
        (endpoint f a x far.stat true false).toOption.isSome
      | _, _ => false) &&
     (let c : CollDesc := ⟨0, 3, 0, 4, 8192, 12288, 1, 2, 0, 0⟩
      let k : OpK := .coll c cword0 ⟨0, 0, 0, 0, 0⟩ none
      let b : List Byte := [1, 0, 0, 0]
      let coll := fun (switch : Bool) (hop : Nat) =>
        { linked with colls := [⟨9, 0, 0, 0, 1, [⟨c, none, 0, 0, 1, []⟩], true, 0, [b, b], hop, [], switch, false⟩] }
      decide (waits k = true ∧ registered (having k) 7 = false ∧ collTurn (having k) (opAs k) 1 = true) &&
      [(false, 0), (false, 1), (true, 0), (false, 2)].all fun q => match (coll q.1 q.2).coll 9 with
        | none => false
        | some v => decide (v.started = true ∧ v.clear (coll q.1 q.2) = true ∧ v.desc = some c ∧ v.staged ≠ [] ∧ v.hop = q.2 ∧
          v.viaSwitch = q.1 ∧ v.fell = false ∧ (v.here (coll q.1 q.2)).all (granted (coll q.1 q.2)) = true ∧ (writeRanks v c (coll q.1 q.2) (v.ordered c)).toOption.isSome))) = true := by decide +kernel

/-- A launch descriptor at 8192 of one part on one die, and its kernel's header at 4096 with a text of 4 bytes. -/
def launchMem : KV Byte :=
  putBytes [] (cells 4096 [1, 0, 0, 0, 4] ++ cells 4134 [1] ++ cells 8192 [0, 0x10] ++ cells 8218 [1, 0, 1])
def launching : State := { wit.modPart 0 (fun q => { q with intake := [(0, [entry0])] }) with mem := launchMem }
/-- What the intake reads of a descriptor, and the verdict of the checks. -/
def intake (s : State) (e : IntakeE) : Option (State × Desc × Option Nat) :=
  match spanBytes (e.op s) .read e.desc 128 s with
  | some (u, some b) => (launchChecks 0 e (descOf b) u).map fun r => (r.1, descOf b, r.2.toOption.map fun q => q.2.2.length)
  | _ => none
theorem wit_LaunchEvents :
    (let refused : State := { launching with mem := [] }
     let s : State := { wit.modCore 0 (fun k => { k with lq := [⟨3, 1, 0, 0⟩] }) with tasks := [task0 0] }
     let u : State := { wit with tasks := [task0 3] }
     (match intake launching entry0, intake refused entry0 with
      | some (v, d, n), some (_, _, m) => decide (n = some 1 ∧ m = none ∧ (v.core 0).lq.length < 32 ∧ { d with nc := 0 }.bad = true)
      | _, _ => false) &&
     decide (intakeHead (launching.part 0) = some (0, entry0) ∧ traceHeld launching 0 = false ∧ (launching.part 0).serving = none ∧ statusWaits launching entry0 = false ∧
       (match reach launching (entry0.op launching) .write 8192 with | .ok _ => true | _ => false) = true) &&
     decide (nextEntry s 0 = some ⟨3, 1, 0, 0⟩ ∧ taskCtx s 0 = some 1 ∧
       s.tasks.find? (fun t => t.id == 3) = some (task0 0) ∧ traceAllows (s.part 0).trace 0 ⟨3, 1, 0, 0⟩ = true ∧ (s.core 0).halted = false ∧
       startsHeld s = false ∧ traceHeld s 0 = false ∧
       u.tasks.find? (fun t => t.id == 3) = some (task0 3) ∧ (task0 3).state < 3 ∧ (∀ p ∈ (task0 3).parts, 3 ≤ p.state) ∧
       statusWaits u (task0 3).launch = false ∧ opsLeft u 3 = false)) = true := by decide +kernel
/-- A descriptor in service, for a core with room and for one whose queue is full. -/
theorem wit_LaunchEvents_serving :
    (let v : Serving := ⟨0, entry0, descOf [], ⟨0, 0, 0, 0, [], 0, 0, 1, 0, []⟩, [], [0], none⟩
     let anew := fun (desc : Desc) => wit.modPart 0 fun q => { q with serving := some { v with desc := desc, bind := some (0, 0) } }
     let one : Desc := { descOf [] with nc := 1, nd := 1 }
     let many : Desc := { descOf [] with nc := 100, nd := 1 }
     let s := wit.modPart 0 fun q => { q with serving := some v }
     let full := s.modCore 0 fun k => { k with lq := List.replicate 32 ⟨3, 1, 0, 0⟩ }
     decide ((s.part 0).serving = some v ∧ statusWaits s v.entry = false ∧ (s.core 0).lq.length < 32 ∧ (full.part 0).serving = some v ∧
       32 ≤ (full.core 0).lq.length ∧ v.bind = (s.part 0).trace.bindRun ∧ traceHeld s 0 = false ∧
       some (0, 0) ≠ ((anew one).part 0).trace.bindRun ∧ (placement (entry0.op wit) (anew one) 0 one 0).2.toOption = some [0] ∧
       (placement (entry0.op wit) (anew many) 0 many 0).2.toOption = none ∧ (s.part 0).tracePend = [])) = true := by decide +kernel

/-- An image's pages can be reached. -/
def reached (s : State) (a : Async) (k : AccKind) (l : List (Nat × Nat)) : Bool := match imgReach a k l s with | .ok _ => true | _ => false
/-- Context 1 is to be saved at 16384; with a store of it under way it is not quiet. -/
theorem wit_ImageEvents_save :
    (let k : OpK := .save false 0 1 16384 [2, 2, 0, 0] cword0
     let st : Async := { opAs (.store [(0, 1)]) with id := 8, ctx := 1 }
     let live := fun (l : List Async) => { other (fun k => { k with status := .suspended, regs := { k.regs with pc := 8 } }) with ops := opAs k :: l }
     decide (Pending (live []) 7 (opAs k) k ∧ ((live []).part 0).cfg.cores.contains 0 = true ∧
       (imgContexts false 1).all (quiet (live []) 0) = true ∧
       reached (live []) (opAs k) .write (pageCuts 16384 (ctxLen ((live []).ctx 0 1))) = true ∧ Pending (live [st]) 7 (opAs k) k ∧
       (imgContexts false 1).all (quiet (live [st]) 0) = false ∧ reached (live [st]) (opAs k) .write [(16384, 64)] = true)) = true := by
  decide +kernel
/-- A save and a load for a core of another partition are refused (SAVESTAT 2, LOADSTAT 6). -/
theorem wit_ImageEvents_refused :
    (let k : OpK := .load false 9 1 16384 cword0
     let v : OpK := .save false 9 1 16384 [] cword0
     decide (waits k = true ∧ reached (having k) (opAs k) .read [(16384, 64)] = true ∧
       reached (having k) (opAs k) .write [(16384, 64)] = true ∧
       reached (having k) (opAs k) .read (pageCuts 16448 ((imgHeader (having k) (opAs k) 16384).len - 64)) = true ∧
       (loadStat (having k) (opAs k) false 9 1 16384).1 = 6 ∧ ((having k).part 0).cfg.cores.contains 9 = false ∧ startsHeld (having k) = false ∧
       waits v = true ∧ reached (having v) (opAs v) .write (pageCuts 16384 64) = true)) = true := by decide +kernel

def cfg1 : PartCfg :=
  { PartCfg.none with num := 1, cores := [8, 9, 10, 11], extents := [0], feat := 0x3F, walk := [(0, 1)], kmap := 0x10000 }
def cfgWhole : PartCfg := { cfg1 with slots := (tablesOf cfg1).map fun t => (t, [0]) }
theorem wit_TranslationAndPartitionEvents :
    (let fresh : State := { (wit.modCore 0 fun k => { k with tlb := [] }).modPart 0 (fun q => { q with root := 0x8000, tcbOk := true }) with
       mem := putBytes [] (cells 0x8000 [1, 0, 2] ++ cells 0x20000 [1, 0, 3] ++ cells 0x30000 [1, 0, 4] ++ cells 0x40000 [0x3F, 3]) }
     let bare := (wit.modCore 0 fun k => { k with tlb := [] }).modPart 0 fun q => { q with root := 0x8000 }
     let e : TlbE := { loadedPage with flags := 0x33F, count := 64 }
     let k : OpK := .tlbinv 0 4096 cword0
     let slots : State := { wit with slots := [(5, ⟨[(3, 1)], some [(4, 1)]⟩)] }
     let flash : Flash := { wit.flash with bankA := { wit.flash.bankA with cfgs := [cfgWhole] } }
     let boot : State := { wit with flash := flash, host := { wit.host with stage := 15, negok := true, foffer := [(0, 0x3F)] } }
     let change := wit.modPart 0 fun q => { q with change := some { q.cfg with cores := [0, 1, 2, 3, 4] } }
     decide (4096 < shelfBase ∧ inWindow 4096 = false ∧ fresh.partOf 0 = 0 ∧ walkPaused fresh 0 0 4096 = false ∧ fresh.ops = [] ∧
       findTlb 0 4096 (fresh.core 0).tlb = none ∧ findTlb 0 4096 (fresh.cluTlb.get [] 0) = none ∧
       walkPaused bare 0 0 4096 = false ∧ (pagedXl bare 0 0 4096).toOption.isNone) &&
     decide ((pagedXl fresh 0 0 4096).toOption.isSome) &&
     decide (((wit.modCore 0 fun k => { k with tlb := [e] }).core 0).tlb = [e] ∧ overCount e = true ∧ waits k = true ∧
       onItsWay (having k) 0 0 4096 = false ∧ tlbinvPaused (having k) 0 0 4096 = false ∧
       (invalidate (having k) 0 0 4096).owed = [] ∧ stackPaused wit e.counter = false ∧ (slots.slots.get SlotTab.reset 5).next = some [(4, 1)]) &&
     decide ((bootCfgs boot).find? (fun q => q.num == 1) = some cfgWhole ∧ boot.host.stage = 15 ∧ boot.host.negok = true ∧
       (boot.part 1).live = false ∧ cfgOk boot cfgWhole = true ∧ stackPaused boot cfgWhole.tcb = false ∧ startsHeld boot = false ∧
       argsWait (setRoutes (writeTables cfgWhole (tablesOf cfgWhole) (readTcb (ownCores 1 cfgWhole.control cfgWhole.cores
         (boot.setPart 1 { Sys2Proof.Machine.Part.none with live := true, cfg := cfgWhole })) 1)) cfgWhole) cfgWhole = false) &&
     (match (change.part 0).change with
      | none => false
      | some n => (change.part 0).live && !startsHeld change && (affected (change.part 0).cfg n).all (coreEmpty change (staying (change.part 0).cfg n)))) = true := by
  decide +kernel
/-- Entries with nothing to add: `TLBINV` drops the one at 4096; a shelf switch of peer 5 fails, where an allocation lies on it alone, one
on it and on peer 6, one elsewhere; a change of the control core and one that keeps it. -/
theorem wit_TranslationAndPartitionEvents_losses :
    (let e : TlbE := { loadedPage with count := 0 }
     let i := wit.modCore 0 fun k => { k with tlb := [e] }
     let l := wit.modPart 0 fun q => { q with
       cfg := { q.cfg with peers := [(5, 2, 9), (6, 2, 10)] }
       shelf := [⟨shelfBase, 2 ^ 21, 5, none, 0, 0, 0⟩, ⟨shelfBase + 2 ^ 21, 2 ^ 21, 5, some 6, 0, 0, 0⟩,
         ⟨shelfBase + 2 ^ 22, 2 ^ 21, 6, some 5, 0, 0, 0⟩, ⟨shelfBase + 2 ^ 23, 2 ^ 21, 6, none, 0, 0, 0⟩] }
     let both := (wit.modPart 0 fun q => { q with change := some { q.cfg with cores := [1, 2, 3] } }).setCtx 0 0 Ctx.reset
     decide ((i.part 0).ringHeld = [] ∧ (i.part 0).recHeld = [] ∧ (∀ f ∈ (i.core 0).tlb, f.counted = false ∨ f.count = 0) ∧
       e.part = 0 ∧ e.va ≤ 4096 ∧ 4096 < e.va + e.size) &&
     decide ((l.parts.map (·.1)).Nodup ∧ (l.part 0).live = true ∧
       ((loseDest l 9).part 0).shelf.map (fun f => (f.state, f.peer1)) = [(2, 5), (1, 6), (1, 6), (0, 6)]) &&
     (match (both.part 0).change with
      | none => false
      | some n => decide (n.control ≠ (both.part 0).cfg.control ∧ argsWait (applyChange both 0 n) n = false) && (both.part 0).live &&
        !startsHeld both && (affected (both.part 0).cfg n).all (coreEmpty both (staying (both.part 0).cfg n)))) = true := by
  decide +kernel
/-- A store to the page at 0 waits at its HBM4 stack's port; a copy that has its grant at the engine waits for the stack's. -/
theorem wit_TranslationAndPartitionEvents_slots :
    (let a := { opAs (.store [(4096, 1)]) with grants := [] }
     let s : State := { wit with ops := [a] }
     let c := { opAs (.copy [⟨8192, some 4096, 64, [], true, true, false⟩] false cword0 ⟨0, 0, 0, 0, 0⟩ true) with grants := [] }
     let u : State := { wit with ops := [c] }
     let i : FabItem := ⟨1, 0, 0, 1, 4096, [5]⟩
     let f : State := { wit with fabric := { wit.fabric with arrived := [(0, i)] } }
     decide (grantOf wit (stackPort 0) 0 = none ∧ grantOf s (stackPort 0) 0 = some a ∧ stackPort 0 ≠ ingressPort ∧ portsOf s a = [stackPort 0] ∧
       grantOf u (slotKey 0 0) 0 = some c ∧ (portsOf u c).contains (stackPort 0) = true ∧ stackPort 0 ≠ slotKey 0 0 ∧ c.grants = [] ∧
       grantee f ingressPort 0 (f.fabric.arrived.map fun e => (e.1, e)) = some (0, i) ∧ (performArrived f (0, i)).isSome)) = true := by
  decide +kernel
theorem wit_FabricEvents :
    (let up := wit.setPort 2 ⟨[(0, ⟨true, false, 1, 0⟩)], 1, 0, 0⟩
     let i : FabItem := ⟨1, 0, 0, 1, 4096, [5]⟩
     let open_ : State := { wit with fabric := { wit.fabric with ingress := [(2 ^ 16, 1)] } }
     decide ((0 + 2 ^ 32 - wit.fabric.rxSeq.get 0 1) % 2 ^ 32 = 0 ∧ wit.fabric.held = [] ∧
       2 ^ 31 ≤ ((2 ^ 32 - 1) + 2 ^ 32 - wit.fabric.rxSeq.get 0 1) % 2 ^ 32 ∧ 0 < (5 + 2 ^ 32 - wit.fabric.rxSeq.get 0 1) % 2 ^ 32 ∧
       ingressPart open_ 1 0 = some 0 ∧ ingressOk open_ 0 i = true ∧ ingressOk open_ 0 { i with addr := 0x200000000000 } = false ∧
       stackPaused open_ i.addr = false ∧ nmBusy open_ (i.addr / 64) = false ∧ partLines open_ (cells i.addr i.bytes) = [] ∧
       ingressPart wit 1 0 = none ∧ (wit.port 2).isUp = false ∧ ((up.port 2).link 0).up = true ∧ ((up.port 2).link 1).up = false ∧
       ((up.port 2).link 0).fw0 ≠ fwMask 0 (0 % 2 ^ 64) ∧
       wit.fabric.unreach.contains 1 = false ∧ livePort wit 1 = none ∧ (livePort linked 1).isSome = true)) = true := by decide +kernel
/-- A segment that has logged a scratchpad unit, at its first consumption and at its second. -/
theorem wit_ErrorEvents :
    (let g := fun (l : List Nat) => wit.modCtx 0 0 fun k =>
       { k with seg := some ⟨k.regs, [], [], [⟨0, coreBase 0 / 64, 9⟩], [(0, coreBase 0 / 64)], [], l, 0, false, 0⟩ }
     decide (wit.poisoned 64 = false ∧ issuer wit 0 = some 0 ∧ (wit.ctx 0 0).seg = none) &&
     [[], [regLine 6 5]].all fun l => decide (issuer (g l) 0 = some 0 ∧ ((g l).ctx 0 0).seg.map (·.chain) = some l ∧
       ((g l).ctx 0 0).seg.map (·.shadow.xfers) = some [] ∧ 2 ^ 48 ≤ 64 * (coreBase 0 / 64))) = true := by decide +kernel
/-- A save with its marker, of generation `g`. -/
def snap0 (g : Nat) : Snap := snapshot State.reset g 0 64 true
theorem wit_PowerEvents :
    (let slow := wit.modCore 0 fun k => { k with rails := 1 }
     let between := wit.modCore 0 fun k => { k with changing := some (1, 0, 5) }
     let kept : State := { State.reset with host := { State.reset.host with stage := 15, negok := true }, checkpoint := some (snap0 4) }
     let saved : State := { kept with emergency := some (snap0 5) }
     let low : State := { wit with power := { wit.power with estimate := [(3, 300000)] } }
     let safe : State := { wit with host := { wit.host with safe := [(0, 1)] } }
     decide ((slow.core 0).active = some 0 ∧ (slow.core 0).changing = none ∧ (slow.core 0).rails ≠ (slow.core 0).curOf 0 ∧
       (slow.core 0).halted = false ∧ (between.core 0).changing = some (1, 0, 5) ∧ 5 ≤ gearLimit (between.core 0).rails ∧ (wit.hbmStacks.get Stack.reset 3).freq ≠ 1 ∧
       wit.power.estimate.get 0 3 - 221184 ≤ 25 * wit.power.issued.get 0 3 ∧
       25 * low.power.issued.get 0 3 < low.power.estimate.get 0 3 - 221184 ∧ low.power.ballast.get 0 3 = 0 ∧
       wit.power.emergency = false ∧ wit.host.ckst ≠ 1) &&
     decide (kept.host.stage = 15 ∧ kept.host.negok = true ∧ (kept.parts.any fun e => e.2.live) = false ∧ kept.emergency = none ∧ startsHeld kept = false ∧
       kept.checkpoint = some (snap0 4) ∧ saved.emergency = some (snap0 5) ∧ (snap0 5).sig = 0x4757454D ∧ (snap0 5).digestOk = true ∧
       (snap0 5).gen = ((saved.checkpoint.map (·.gen)).getD 0 + 1) % 2 ^ 32 ∧
       lpaClass tierBase = some 4 ∧ (safe.host.safe.any fun r =>
         decide (tierBase + r.1 * 2 ^ 30 ≤ tierBase ∧ tierBase < tierBase + (r.1 + r.2) * 2 ^ 30)) = true ∧ savedByte 4096 = true)) = true := by
  decide +kernel
theorem wit_HostEvents :
    (let h : (HostIf → HostIf) → State := fun f => { State.reset with host := f State.reset.host }
     let two := h fun h => { h with ended := [1] }
     let last := h fun h => { h with ended := [1, 3, 6, 7, 4, 8, 5, 2] }
     let bad : Bank := { State.reset.flash.bankA with keyOk := false }
     let ready := h fun h => { h with stage := 15, safe := [(0, 1024)], ckctl := 2 ^ 32 }
     let small := h fun h => { h with stage := 15 }
     let window : State := { wit with host := { wit.host with bar2 := [0] } }
     decide (two.host.fatal = false ∧ two.host.ended.contains 3 = false ∧ (stageNeeds 3).all two.host.ended.contains = true ∧
       two.host.ended.length ≠ 8 ∧ last.host.ended.contains 9 = false ∧ (stageNeeds 9).all last.host.ended.contains = true ∧
       last.host.ended.length = 8 ∧ State.reset.host.ended = [] ∧ bootBank State.reset.flash = some 0 ∧
       bootBank { State.reset.flash with bankA := bad, bankB := bad } = none ∧ ready.host.stage = 15) &&
     decide ((ready.parts.any fun e => e.2.live) = false ∧ (wit.parts.any fun e => e.2.live) = true ∧ ready.host.ckst ≠ 1 ∧
       ready.power.emergency = false ∧ checkpointLen ≤ (ready.host.safe.map fun r => r.2).sum * 2 ^ 30 ∧
       bits ready.host.ckctl 32 16 ≠ 0 ∧ (small.host.safe.map fun r => r.2).sum * 2 ^ 30 < checkpointLen) &&
     decide (60 ≤ 200 % 2 ^ 9 ∧ 200 % 2 ^ 9 ≤ 300 ∧ 400 % 2 ^ 9 > 300 ∧ barPlace window 4096 = some 4096 ∧ stackPaused window 4096 = false ∧
       nmBusy window (4096 / 64) = false ∧ window.poison = [] ∧
       (h fun h => { h with ckst := 1 }).host.ckst = 1 ∧ (h fun h => { h with attBusy := true, ended := [1, 2] }).host.ended.contains 2 = true ∧
       ({ State.reset with powered := false } : State).powered = false)) = true := by decide +kernel

/-! An image of a header alone for context 1 of core 0, with this module's signature. -/

def head0 : Header := ⟨1, 0, 0, 1, 64, 0, 0, 0, 0, 0, 0, 0, 0, fsigOf wit, 0, 0⟩
def image0 : Image :=
  { part := 0, core := 0, ctx := some 1, ctxs := [], acc := [], os := [], lt := [], bars := [], scratch := [], claims := [], poison := [],
    len := 64, tick := 0 }
def loadK : OpK := .load false 0 1 16384 cword0
def loading : State := { having loadK with mem := cells 16384 head0.bytes, images := [image0] }
theorem loading_header : imgHeader loading (opAs loadK) 16384 = head0 := by
  have h : imgRead loading (opAs loadK) 16384 1 = [head0.bytes] := by rfl
  unfold imgHeader
  rw [h, List.headD_cons, headerOf_bytes]
  exact ⟨by decide, by decide, by decide, by decide, by decide, by decide, by decide, by decide, by decide, by decide, by decide, by decide,
    by decide, Nat.mod_lt _ (Nat.two_pow_pos 64), by decide, by decide⟩
theorem wit_ImageEvents_loaded :
    Pending loading 7 (opAs loadK) loadK ∧ reached loading (opAs loadK) .read [(16384, 64)] = true ∧
    reached loading (opAs loadK) .read (pageCuts 16448 ((imgHeader loading (opAs loadK) 16384).len - 64)) = true ∧
    loadStat loading (opAs loadK) false 0 1 16384 = (0, some image0) ∧ (loading.part 0).cfg.cores.contains 0 = true := by
  refine ⟨by decide +kernel, by decide +kernel, ?_, ?_, by decide +kernel⟩
  · rw [loading_header]; decide +kernel
  · unfold loadStat
    have h1 : (loading.part (opAs loadK).part).cfg.cores.contains 0 = true := by decide +kernel
    have h2 : ((imgContexts false 1).any fun x => (loading.ctx 0 x).status != Status.empty) = false := by decide +kernel
    have h3 : head0.fsig = fsigOf loading := rfl
    have h4 : imgPoisoned loading (opAs loadK) 16384 (head0.len / 64) = false := by decide +kernel
    have h5 : findImage loading (opAs loadK) 16384 head0.len = some image0 := by rfl
    simp only [loading_header, h1, h2, h3, h4, h5]
    simp [head0, image0]
/-- A context with a pending branch, saved and restored with a header that says the same. -/
theorem wit_ImageEvents_restored :
    (let k : Ctx := { Ctx.reset with status := .ready, regs := { Regs.start with pc := 8, rep := 3, pend := some ⟨.jump 40, 2⟩ } }
     let h : Header := { head0 with pc := 8, rep := 3, dly := 2 }
     let im : Image := { image0 with ctxs := [(1, k)] }
     decide (imgContexts false 1 = [1] ∧ (im.ctxs.get Ctx.reset 1).status ≠ .empty ∧ (wit.ctx 0 0).status ≠ .empty ∧ h.pc = k.regs.pc ∧
       h.rep % 16 = k.regs.rep ∧ k.regs.pend = some ⟨.jump 40, 2⟩ ∧ 2 = h.dly % 4)) = true := by decide +kernel
theorem wit_ImageEvents_reached : ∃ x, reach loading (opAs loadK) .write 16384 = .ok x := by
  exact ⟨_, rfl⟩

/-! ### Decoding: each word is the table's pattern of its row with the fields written in at their places -/

/-- Every word of a slot decodes, with its extension word, to its instruction. -/
def decodesAll (slot : Nat) (l : List (Nat × Option Nat × Instr)) : Bool := l.all fun q => decodes slot q.1 q.2.1 q.2.2
theorem test_decode_B : decodesAll 0 [
  (0x00000000, none, .nop), (0x01123456, none, .br 1193046), (0x027AABCD, none, .brp 7 true 175053), (0x03880000, none, .brr 34),
  (0x0486ABCD, none, .call 33 175053), (0x05880000, none, .ret 34), (0x06B9ABCD, none, .loop 2 3 true 109517),
  (0x06800000, none, .loopEnd 2), (0x07000000, none, .endk), (0x0880AB00, none, .bwait none 1029 22),
  (0x0980AB30, none, .barv none 1029 22 3 0), (0x0A80AB00, none, .binit none 1029 22), (0x0B960000, none, .monwait none 2 22),
  (0x0CC00000, none, .gear 3), (0x0C2B0000, none, .gearReg 22), (0x0DA50000, none, .trap 165), (0x0EA50000, none, .brk 165),
  (0x0F65A000, none, .dlchk 6 22 true), (0x108A0000, none, .launch 34 2), (0x11560000, none, .lqstat 21 2),
  (0x60000000, none, .eret), (0x61556340, none, .srdp 21 88 13), (0x62893C80, none, .swrp 34 79 2),
  (0x638B2000, none, .tlbinvPage 34 50), (0x63032400, none, .tlbinvAll 50), (0x638B2800, none, .tlbinvWb 34 50),
  (0x64462C80, none, .ctxsvCtx 17 34 50), (0x64462C90, none, .ctxsvCore 17 34 50), (0x65462C80, none, .ctxldCtx 17 34 50),
  (0x65462C90, none, .ctxldCore 17 34 50), (0x66000000, none, .trcctlOff), (0x66890000, none, .trcctlRec 34),
  (0x668A0000, none, .trcctlBind 34), (0x67000000, none, .idle)] = true := by decide +kernel
theorem test_decode_S : decodesAll 1 [
  (0x00562B5E, none, .add none 21 34 45 7 true), (0x01562B5E, none, .sub none 21 34 45 7 true),
  (0x02562B5E, none, .mul none 21 34 45 7 true), (0x03562B5F, none, .mulh none 21 34 45 7 true true),
  (0x04562B5F, none, .div none 21 34 45 7 true true), (0x05562B5F, none, .rem none 21 34 45 7 true true),
  (0x08562B5E, none, .and none 21 34 45 7 true), (0x09562B5E, none, .or none 21 34 45 7 true),
  (0x0A562B5E, none, .xor none 21 34 45 7 true), (0x0B562B5E, none, .andn none 21 34 45 7 true),
  (0x0C562B5E, none, .shl none 21 34 45 7 true), (0x0D562B5E, none, .shr none 21 34 45 7 true),
  (0x0E562B5E, none, .sra none 21 34 45 7 true), (0x0F562B5E, none, .rot none 21 34 45 7 true),
  (0x1056201E, none, .clz 21 34 7 true), (0x1156201E, none, .popc 21 34 7 true),
  (0x12562B5F, none, .min none 21 34 45 7 true true), (0x13562B5F, none, .max none 21 34 45 7 true true),
  (0x146A2B5F, none, .cmp none 6 2 34 45 7 true true), (0x15562B5E, none, .sel none 21 34 45 7 true),
  (0x185403E8, none, .ldi 21 1000), (0x1C69AC00, none, .pand 6 9 10 true true), (0x1D69AC00, none, .por 6 9 10 true true),
  (0x1E69AC00, none, .pxor 6 9 10 true true), (0x1F690800, none, .pnot 6 9 true), (0x20541E1E, none, .srd 21 7 8 7 true),
  (0x218830DE, none, .swr 34 12 3 7 true)] = true := by decide +kernel
theorem test_decode_A : decodesAll 3 [
  (0x00CD8000, none, .amov 12 13 true), (0x01CD5800, none, .aadd none 12 13 22), (0x02C5A345, none, .aldi none 12 22 9029),
  (0x03C96000, none, .astr none 12 2 22), (0x04577000, none, .aget 21 13 true 2),
  (0x05A50F80, none, .aclr 42255 true)] = true := by decide +kernel
theorem test_decode_L : decodesAll 4 [
  (0x0056DDA5, none, .ld none 21 11 1 true 1445), (0x01B2D5A5, none, .st none 44 11 1 1445),
  (0x024DCDA5, none, .vld none 9 11 9 1445), (0x0355C9D5, none, .vst none 10 11 9 3 85),
  (0x046B95A5, none, .vldw none 6 11 9 false 1445), (0x056B7DA5, none, .vstw none 6 11 7 true 1445),
  (0x0649ACCC, none, .vgth none 9 6 11 3 3), (0x0751ACCC, none, .vsct none 10 6 11 3 3), (0x08000000, none, .vjoin),
  (0x094BBEEF, none, .pld none 4 11 48879), (0x0A4BBEEF, none, .pst none 4 11 48879)] = true := by decide +kernel
theorem test_decode_V : decodesAll 6 [
  (0x00494C67, none, .vadd none 9 5 6 3 3 true), (0x01494C67, none, .vsub none 9 5 6 3 3 true),
  (0x02494C67, none, .vmul none 9 5 6 3 3 true), (0x03494C67, none, .vmulh none 9 5 6 3 3 true),
  (0x04494C67, none, .vsadd none 9 5 6 3 3 true), (0x05494C67, none, .vssub none 9 5 6 3 3 true),
  (0x06494C67, none, .vmin none 9 5 6 3 3 true), (0x07494C67, none, .vmax none 9 5 6 3 3 true),
  (0x08494067, none, .vabs none 9 5 3 3 true), (0x09494067, none, .vneg none 9 5 3 3 true),
  (0x0A494C67, none, .vand none 9 5 6 3 3 true), (0x0B494C67, none, .vor none 9 5 6 3 3 true),
  (0x0C494C67, none, .vxor none 9 5 6 3 3 true), (0x0D494C67, none, .vandn none 9 5 6 3 3 true),
  (0x0E494C67, none, .vshl none 9 5 6 3 3 true), (0x0F494C67, none, .vshr none 9 5 6 3 3 true),
  (0x10494C67, none, .vsra none 9 5 6 3 3 true), (0x11494067, none, .vclz none 9 5 3 3 true),
  (0x12494067, none, .vpopc none 9 5 3 3 true), (0x13429A9C, none, .vcmp none 4 5 6 5 3 true),
  (0x20494C72, none, .vfadd none 9 5 6 3 9), (0x21494C72, none, .vfsub none 9 5 6 3 9),
  (0x22494C72, none, .vfmul none 9 5 6 3 9), (0x26494C72, none, .vfmin none 9 5 6 3 9),
  (0x27494C72, none, .vfmax none 9 5 6 3 9), (0x28494072, none, .vfabs none 9 5 3 9), (0x29494072, none, .vfneg none 9 5 3 9),
  (0x2A429B48, none, .vfcmp none 4 5 6 6 9), (0x2B42AAB2, none, .vfcls none 4 5 341 9), (0x2C494072, none, .vfexp none 9 5 3 9),
  (0x2D494C72, none, .vfscl none 9 5 6 3 9), (0x304969D8, none, .vcvt none 9 5 10 7 3 false false),
  (0x31494D14, none, .vcvts none 9 5 6 8 10), (0x32494174, none, .vquant none 9 5 2 3 10),
  (0x32415214, none, .vquantBlk none 8 5 4 10), (0x33496930, none, .vdeq none 9 5 10 2 3),
  (0x33496A30, none, .vdeqBlk none 9 5 10 3), (0x34494C67, none, .vsel none 9 5 6 3 3 true),
  (0x35494067, none, .vmov none 9 5 3 3 true), (0x364AC664, none, .vbcast 9 22 3 3 true),
  (0x36496131, none, .vbcastRow none 9 5 33 3), (0x36496132, none, .vbcastCol none 9 5 33 3),
  (0x374AC427, none, .vins 9 22 33 3 true), (0x3854A427, none, .vext none 21 5 33 3 true), (0x39800000, none, .vshape 4),
  (0x3A494C00, none, .vtag none 9 5 3), (0x40494CF0, none, .vrsum none 9 5 3 3 true true),
  (0x41494CF0, none, .vrmax none 9 5 3 3 true true), (0x42494CF0, none, .vrmin none 9 5 3 3 true true),
  (0x43494C69, none, .vxrd none 9 5 6 3 4 true), (0x4449534E, none, .vrot none 9 5 77 3 true),
  (0x488A6000, none, .vspush none 2 5 3), (0x49928000, none, .vspop 2 9 4), (0x49929000, none, .vspopEnd 2 9 4),
  (0x4A700000, none, .vsbal 1 3), (0x50456000, none, .mand 4 5 6), (0x51456000, none, .mor 4 5 6),
  (0x52456000, none, .mxor 4 5 6), (0x53450000, none, .mnot 4 5), (0x54554000, none, .mpopc 21 5),
  (0x55554000, none, .mfirst 21 5), (0x56400C80, none, .mset 4 200),
  (0x564AC000, none, .msetReg 4 22)] = true := by decide +kernel
theorem test_decode_F : decodesAll 7 [
  (0x00494C00, none, .fexp2 none 9 5 3), (0x01494C00, none, .flog2 none 9 5 3), (0x02494C00, none, .frcp none 9 5 3),
  (0x03494C00, none, .frsq none 9 5 3)] = true := by decide +kernel
theorem test_decode_M : decodesAll 8 [
  (0x005E1400, none, .mclaim 1 30 5), (0x015E1400, none, .mrel 1 30 5), (0x02A2DDA5, none, .mfill none 40 5 11 1445),
  (0x03A88000, none, .mlatch 2 40 true), (0x04A53600, none, .mpush none 2 37 6 true true),
  (0x05A25360, none, .mshift none 40 37 6 true true), (0x064E5A28, none, .macc none 19 37 40 2 true),
  (0x074E54D1, none, .mdrain 19 37 9 10 0 true), (0x084C0000, none, .mzero 19),
  (0x09890000, none, .mfmt 8 9 false false 0 false false)] = true := by decide +kernel
theorem test_decode_N : decodesAll 9 [
  (0x008A0000, none, .qldm none 2 5), (0x018A0000, none, .qldk none 2 5), (0x02494C70, none, .qadd none 9 5 6 3 2),
  (0x03494C70, none, .qsub none 9 5 6 3 2), (0x04494C70, none, .qmul none 9 5 6 3 2), (0x05494C70, none, .qmac none 9 5 6 3 2),
  (0x06494070, none, .qred none 9 5 3 2), (0x078A4670, none, .qbfly none 17 9 3 3 2),
  (0x088A4670, none, .qibfly none 17 9 3 3 2), (0x09494E00, none, .qcvtQ64I64 none 9 5 3 2),
  (0x09494E80, none, .qcvtI64Q64 none 9 5 3 2), (0x0A494E40, none, .bperm none 9 5 3 4 true),
  (0x0B496400, none, .bpermi none 9 5 4 true), (0x0C494C70, none, .vxperm none 9 5 6 3 true)] = true := by decide +kernel
theorem test_decode_C : decodesAll 10 [
  (0x00516000, none, .seqlv none 2 4 22), (0x0156CC80, none, .seqgo 21 44 50), (0x0256CCA4, none, .tmov 21 44 50 9),
  (0x04B2B000, none, .send 11 10 3), (0x04BC5900, none, .sendMem 11 34 100), (0x05B27358, none, .recv none 11 9 3 3 22),
  (0x05BC5916, none, .recvMem none 11 34 100 22), (0x068B2000, none, .nmcmd 34 50), (0x07000000, none, .nmfence),
  (0x08600000, none, .fence 3), (0x09362B7C, none, .atom 3 1 34 45 60), (0x0A362B7C, none, .atomr 3 1 34 45 60),
  (0x0BB3C800, none, .shalloc 44 60 true), (0x0C8BC000, none, .shfree 34 60), (0x0D712C00, none, .stamp none 3 34 22),
  (0x0EA20000, none, .monarm 2 34), (0x0FDA29A0, none, .bndset 13 40 41 2 true), (0x10A20000, none, .ctset 2 34),
  (0x118B2000, none, .coll 34 50), (0x128A4000, none, .pref 34 9)] = true := by decide +kernel
/-- Words that take an extension word (R132, R137, R175, R198). -/
theorem test_decode_extended :
    decodesAll 1 [(0x98540000, some 0x12345678, .ldiExt 0x12345678 21), (0x98560000, some 0x12345678, .ldiHi 0x12345678 21),
      (0x8055201E, some 0xFFFFFFFF, .add (some 0xFFFFFFFF) 21 18 0 7 true)] = true ∧
    decodesAll 5 [(0xA4494C72, some 0x0B000000, .vfms 0x0B000000 9 5 6 3 9), (0x80494C66, some 0x60000000, .vadd (some 0x60000000) 9 5 6 3 3 false)] = true ∧
    decodesAll 10 [(0x83562CA4, some 0xA5, .mcast 0xA5 21 34 50 9)] = true := by decide +kernel
/-- The encodings that the spec's worked examples print (the attention, normalization, graph, convolution and transform kernels). -/
theorem test_worked_words :
    decodesAll 0 [(0x06080046, none, .loop 0 0 true 70), (0x06080063, none, .loop 0 0 true 99)] = true ∧
    decodesAll 6 [(0x41628280, none, .vrmax none 12 10 0 10 false false)] = true ∧
    decodesAll 5 [(0x2A265050, none, .vfcmp none 2 12 20 0 10), (0xA31E3A14, some 0x1F000000, .vfma 0x1F000000 3 24 29 0 10),
      (0x2B668314, none, .vfcls none 6 13 0x18 10), (0x2C8340F4, none, .vfexp none 16 13 7 10),
      (0xA5C564B4, some 0x18000000, .vfnma 0x18000000 24 21 18 5 10), (0x342110B6, none, .vsel none 4 4 8 5 11 false)] = true ∧
    decodesAll 7 [(0x009C4000, none, .fexp2 none 19 17 0), (0x03945400, none, .frsq none 18 17 5)] = true ∧
    decodesAll 8 [(0x02041001, none, .mfill none 1 0 2 1), (0x03010000, none, .mlatch 0 1 false), (0x06000000, none, .macc none 0 0 0 0 false),
      (0x07000440, none, .mdrain 0 0 8 8 0 false), (0x05000400, none, .mshift none 0 0 8 false false)] = true ∧
    decodesAll 9 [(0x00020000, none, .qldm none 0 1), (0x0B312400, none, .bpermi none 6 4 4 true), (0x07219C00, none, .qbfly none 4 6 14 0 0)] = true ∧
    decodesAll 10 [(0x011CA580, none, .seqgo 7 10 22), (0x04021000, none, .send 0 8 1), (0x85021800, some 0x51E, .recv (some 0x51E) 0 8 1 8 0)] =
      true := by decide +kernel
/-- Words that stand for no instruction of their slot (R113, R117, R118). -/
theorem test_decode_refused :
    decodeSyl 1 0x06000000 none = .error .unassigned ∧ decodeSyl 1 0x000C2101 none = .error .reserved ∧
    decodeSyl 5 0x48000000 none = .error .v1Only ∧ decodeSyl 6 0x00088698 none = .error .operand ∧
    decodeSyl 8 0x08C00000 none = .error .operand := ⟨rfl, rfl, rfl, rfl, rfl⟩
/-- The headers of the table after R112: `NOP`, an idle bundle, a reference, a sticky bundle, a repeated one. -/
theorem test_decode_headers :
    decodeBundle [0x20000000, 0, 9] = .ok (.bundleIssue 0 false false false [(0, 0, none)], [9]) ∧
    decodeBundle [0x80000014] = .ok (.idleBundle false false 20, []) ∧
    decodeBundle [0x40004005] = .ok (.dictionaryReference 0 true false false 5, []) ∧
    decodeBundle [0x00011000] = .ok (.bundleIssue 2 false false true [], []) ∧
    decodeBundle [0x01018000, 0x00088686] = .ok (.bundleIssue 3 false false false [(5, 0x00088686, none)], []) ∧
    decodeBundle [0xC0000000] = .error .header ∧ decodeBundle [0x3FF82000] = .error .short := ⟨rfl, rfl, rfl, rfl, rfl, rfl, rfl⟩

/-! ### Ill-formed terms, one for each check of WellFormed -/

/-- No term of a list is well formed. -/
def noneWf (l : List Instr) : Bool := l.all fun i => !i.wf
theorem test_ill_formed_widths :
    noneWf [.bundleIssue 16 false false false [], .bundleIssue 0 false false false [(11, 0, none)],
      .bundleIssue 0 false false false [(1, 2 ^ 32, none)], .bundleIssue 0 false false false [(1, 2 ^ 31, none)],
      .bundleIssue 0 false false false [(1, 0, some 0)], .bundleIssue 0 false false false [(2, 0, none), (1, 0, none)],
      .dictionaryReference 0 false false false 256, .idleBundle false false 0, .idleBundle false false 4096, .br (2 ^ 24),
      .brp 16 false 0, .call 64 0, .loop 4 0 false 1, .bwait none 2048 0, .bwait (some (2 ^ 32)) 0 0, .launch 0 4, .add none 64 0 0 0 false,
      .ldi 0 (2 ^ 18), .aclr (2 ^ 16) false, .pld none 0 0 (2 ^ 16), .vadd none 32 0 0 0 1 false, .send 16 0 0, .mclaim 0 64 0,
      .pref 0 16] = true := by decide +kernel
theorem test_ill_formed_scalar :
    noneWf [.loop 0 0 false 0, .bwait (some 1) 0 1, .binit (some (2 ^ 16)) 0 0, .barv none 0 0 6 0, .barv none 0 0 0 5, .barv (some 1) 0 0 0 1,
      .barv (some 512) 0 0 0 5, .barv none 0 0 0 7, .monwait (some 1) 0 1, .srdp 0 0x5D 0, .swrp 0 0x40 0, .add (some 1) 0 0 1 0 false,
      .srd 0 0x40 0 0 false, .srd 0 0x07 9 0 false, .swr 0 0x01 0 0 false, .aldi (some 1) 0 0 1, .aadd (some 1) 0 0 1,
      .aget 0 0 false 1, .ld none 0 0 3 true 0, .ld (some 1) 0 0 0 false 1, .vld none 0 0 12 0, .vst none 0 0 0 1 0, .vldw none 0 0 3 true 0,
      .vgth none 0 0 0 0 5, .pst (some 1) 0 0 1] = true := by decide +kernel
theorem test_ill_formed_vector :
    noneWf [.vadd none 0 0 0 0 5 false, .vadd (some 1) 0 0 0 0 1 false, .vadd (some (2 ^ 31)) 0 0 0 0 1 false, .vand none 0 0 0 0 12 false,
      .vand none 0 0 0 0 8 true, .vand none 0 0 0 1 0 false, .vcmp none 0 0 0 6 1 false, .vfadd none 0 0 0 0 7, .vfma 1 0 0 0 0 10,
      .vfcmp none 0 0 0 7 10, .vfcls none 0 0 0 10, .vcvt none 0 0 3 3 0 false false, .vcvt none 0 0 11 3 0 false false,
      .vcvt none 0 0 3 10 1 false false, .vcvt none 0 0 3 10 0 true false, .vcvts none 0 0 0 10 8, .vcvts (some 2) 0 0 0 8 10,
      .vquant none 0 0 0 2 8, .vquantBlk none 1 0 0 10, .vdeq none 0 0 3 0 0, .vsel none 0 0 0 0 0 false, .vmov none 0 0 1 0 false,
      .vins 0 0 64 3 false, .vext none 0 0 64 3 false, .vshape 7, .vtag none 0 0 12, .vrsum none 0 0 0 7 false false, .vrot none 0 0 0 0 false,
      .mset 0 512, .mset 0 257] = true := by decide +kernel
theorem test_ill_formed_rest :
    noneWf [.mclaim 3 0 0, .mclaim 1 47 1, .mclaim 2 4 0, .mlatch 0 1 true, .mpush none 0 0 1 false true, .mshift none 1 0 0 false true,
      .macc none 48 0 0 0 false, .mdrain 48 0 0 10 0 false, .mdrain 0 0 0 4 0 false, .mdrain 0 0 0 10 1 false, .mzero 48,
      .mfmt 8 7 false false 0 false false, .mfmt 8 8 true false 0 false false, .mfmt 8 8 false false 1 false false,
      .mfmt 8 8 false false 0 true false, .qbfly none 1 1 0 0 0, .bperm none 0 0 0 5 true, .seqlv none 6 2 0, .tmov 0 0 0 15,
      .mcast 256 0 0 0 0, .recv none 0 0 0 12 0, .recv (some 1) 0 0 0 0 1, .fence 6, .stamp none 6 0 0, .atom 12 1 0 0 0,
      .atom 0 0 0 0 0, .atom 9 1 0 63 0, .shalloc 0 0 false, .shfree 0 0,
      .macc (some 64) 0 0 0 0 false, .mfill (some (2 ^ 29)) 0 0 0 0] = true := by decide +kernel

/-! ### One step each, on values worked out by hand from the rule named -/

/-- The registers of context 0 of core 0 after an instruction, whose `g10`, `g11` hold two numbers. -/
def afterWith (a b : Word) (i : Instr) : Regs :=
  match exec i (regsWith fun r => { r with g := r.g ++ [(10, a), (11, b)] }) with
  | .next t => (t.ctx 0 0).regs
  | _ => Regs.start
/-- The first result in flight. -/
def result (r : Regs) : Option Res := (r.inflight.head?).map (·.res)
def minus (n : Nat) : Word := BitVec.ofInt 64 (-(n : Int))

/-- R133: 2^64 − 1 plus 1 wraps to 0 and is visible to the next bundle, 8 bytes further and one cycle later. -/
theorem test_add_wraps :
    (let r := afterWith (minus 1) 1 (.add none 12 10 11 0 false)
     decide (r.rg 12 = 0 ∧ r.pc = 8 ∧ r.ltime = 1)) = true := by decide +kernel
/-- R132: the immediate is sign-extended; R131: with its guard false nothing is written. -/
theorem test_add_immediate :
    (afterWith 5 0 (.add (some 0xFFFFFFFF) 12 10 0 0 false)).rg 12 = 4 ∧ (afterWith 5 0 (.add (some 1) 12 10 0 0 true)).rg 12 = 0 := by
  decide +kernel
/-- R133: the shift count is 8 bits; from 64 on everything is shifted out. -/
theorem test_shifts :
    (afterWith 1 64 (.shl none 12 10 11 0 false)).rg 12 = 0 ∧ (afterWith 1 256 (.shl none 12 10 11 0 false)).rg 12 = 1 ∧
    (afterWith (minus 8) 200 (.sra none 12 10 11 0 false)).rg 12 = minus 1 ∧
    (afterWith 0x8000000000000001 1 (.rot none 12 10 11 0 false)).rg 12 = 3 := by decide +kernel
/-- R133, R55: high halves of (−1)·(−1), latency 3; −7 divided by 2. -/
theorem test_multiply_divide :
    result (afterWith (minus 1) (minus 1) (.mulh none 12 10 11 0 false false)) = some (.g 12 0) ∧
    result (afterWith (minus 1) (minus 1) (.mulh none 12 10 11 0 false true)) = some (.g 12 (minus 2)) ∧
    result (afterWith (minus 7) 2 (.div none 12 10 11 0 false false)) = some (.g 12 (minus 3)) ∧
    result (afterWith (minus 7) 2 (.rem none 12 10 11 0 false false)) = some (.g 12 (minus 1)) := by decide +kernel
/-- R135: −1 is below 1 as a signed number and not as an unsigned one. -/
theorem test_compare_signs :
    (afterWith (minus 1) 1 (.cmp none 3 2 10 11 0 false false)).rp 3 = true ∧
    (afterWith (minus 1) 1 (.cmp none 3 2 10 11 0 false true)).rp 3 = false := by decide +kernel
/-- R137: the window base in two loads. -/
theorem test_ldi_hi : (afterWith 0 0 (.ldiHi 0x01FFFF00 10)).rg 10 = 0x01FFFF0000000000 ∧ (afterWith 0 0 (.ldi 10 0x3FFFF)).rg 10 = minus 1 := by
  decide +kernel
/-- R142: address arithmetic wraps modulo 2^57. -/
theorem test_address_wraps : (afterWith (minus 4097) 0 (.aadd none 3 2 10)).ra 3 = BitVec.allOnes 57 := by decide +kernel
/-- R143: a branch to −4, outside the text, leaves two delay bundles; the link is the offset behind them, of 4 bytes each where none can
be fetched (log entry 20). -/
theorem test_call_link :
    (let r := afterWith 0 0 (.call 12 0x3FFFF)
     decide (r.rg 12 = 16 ∧ r.pend = some ⟨.jump (2 ^ 64 - 4), 2⟩ ∧ r.pc = 8)) = true := by decide +kernel
/-- R200: element 0 wraps, element 1 saturates where `VSADD` is asked. -/
theorem test_vector_add :
    (let v : VReg := ⟨0x7FFFFFFF00000001, 3⟩
     let r : Instr → Nat × Nat := fun i => match exec i (regsWith fun r => { r with v := [(3, v)] }) with
       | .next t => match result (t.ctx 0 0).regs with
         | some (.v _ x) => (x.tag, x.bits.toNat % 2 ^ 64)
         | _ => (0, 0)
       | _ => (0, 0)
     decide (r (.vadd none 20 3 3 0 3 false) = (3, 0xFFFFFFFE00000002) ∧ r (.vsadd none 20 3 3 0 3 false) = (3, 0x7FFFFFFF00000002))) =
      true := by decide +kernel
/-- R57, R61: 1 + 2 = 3; 1 + 2^-24 rounds to even with NX; the largest number doubled overflows to infinity; 0 · ∞ is invalid. -/
theorem test_fp32 :
    fadd 10 ⟨0, 0⟩ 0x3F800000 0x40000000 = (0x40400000, 0) ∧ (fadd 10 ⟨0, 0⟩ 0x3F800000 0x33800000).1 = 0x3F800000 ∧
    (fadd 10 ⟨0, 0⟩ 0x7F7FFFFF 0x7F7FFFFF).1 = 0x7F800000 ∧ (fmul 10 ⟨0, 0⟩ 0 0x7F800000).1 = 0x7FC00000 := by decide +kernel
/-- R220: exact results of the special functions: 2^3 = 8, log2 8 = 3, 1/4, 1/√4. -/
theorem test_special_functions :
    (fexp2 (decodeVal 10 0x40400000)).1 = 0x41000000 ∧ (flog2 (decodeVal 10 0x41000000)).1 = 0x40400000 ∧
    (frcp ⟨0, 0⟩ (decodeVal 10 0x40800000)).1 = 0x3E800000 ∧ (frsq (decodeVal 10 0x40800000)).1 = 0x3F000000 := by decide +kernel
/-- R146: the last pass of level 0 ends it and adds its stride; level 1 goes back to its start. -/
theorem test_loop_step :
    (let r := { Regs.start with loops := [(0, ⟨true, 1, 8, 40, 4⟩), (1, ⟨true, 3, 0, 40, 0⟩)], str := [(0, 16), (1, 100)] }
     let q := loopStep r 40
     decide (q.2 = 0 ∧ (q.1.loop 0).act = false ∧ (q.1.loop 1).remain = 2 ∧ q.1.ra 0 = 116)) = true := by decide +kernel
/-- R90: the second of two arrivals completes phase 5; one for phase 9 breaks the barrier. -/
theorem test_barrier :
    (Barrier.mk 2 5 1 1 false []).arrive 5 = ⟨2, 6, 1, 0, false, []⟩ ∧ ((Barrier.mk 2 5 1 1 false []).arrive 9).brk = true := by decide +kernel
/-- R85: with an all-zero zone map bank 0 of row 1 stands at bank 1. -/
theorem test_view_map : physOff 0 1024 = some (1024 + 16) ∧ physOff 6 0 = none := by decide +kernel
/-- R255: a misaligned load of a context at level U suspends it with the alignment cause; nothing is written. -/
theorem test_alignment_suspends :
    (match exec (.ld none 12 1 3 false 0) (user.modRegs 0 0 fun r => { r with a := [(1, BitVec.ofNat 57 (windowBase + 1))] }) with
      | .next t => decide ((t.ctx 0 0).status = .suspended ∧ (t.ctx 0 0).suspCause = 0x13 ∧ (t.ctx 0 0).regs.pc = 0 ∧
          (t.ctx 0 0).regs.inflight = [])
      | _ => false) = true := by decide +kernel
/-- R147, log entry 5: `LDI g1, 5` placed behind reset in slot S0 runs as the first bundle. -/
theorem test_first_step :
    (match step (State.reset.withFetchWord 32 0x18040005) with
      | .next t => decide ((t.ctx 0 0).regs.rg 1 = 5 ∧ (t.ctx 0 0).regs.pc = 8)
      | _ => false) = true := by decide +kernel

end Sys2Proof.Tests
end

namespace Sys2Proof.Machine

open Sys2Proof

-- One proof after the other: elaborated side by side, several hundred short proofs take more threads than the memory limit leaves.
set_option Elab.async false

/-! ### Read after write (O3) -/

/-- The first byte of a write counts where no later one is for the same address. -/
theorem lastByte_cons (b : Nat × Byte) (rest : List (Nat × Byte)) (old : Byte) (ga : Nat) :
    lastByte (b :: rest) old ga = lastByte rest (if b.1 = ga then b.2 else old) ga := by
  simp only [lastByte, List.reverse_cons, List.find?_append]
  cases rest.reverse.find? fun b => b.1 == ga with
  | some e => rfl
  | none =>
    simp only [Option.none_or, List.find?_singleton, beq_iff_eq]
    by_cases hb : b.1 = ga
    · rw [if_pos hb, if_pos hb]
      rfl
    · rw [if_neg hb, if_neg hb]

/-- Of a write in order a byte keeps the last value written to it. -/
theorem putBytes_get (bytes : List (Nat × Byte)) (m : KV Byte) (ga : Nat) :
    (putBytes m bytes).get 0 ga = lastByte bytes (m.get 0 ga) ga := by
  induction bytes generalizing m with
  | nil => rfl
  | cons b rest ih =>
    rw [putBytes, ih, lastByte_cons]
    split
    · next hb => rw [← hb, KV.get_put_self]
    · next hb => rw [KV.get_put_ne 0 m b.2 (Ne.symm hb)]

/-- Leaving out bytes at addresses that `p` does not take changes nothing at an address that `p` takes. -/
theorem lastByte_filter_of_pos (bytes : List (Nat × Byte)) (p : Nat → Bool) (old : Byte) {ga : Nat} (h : p ga = true) :
    lastByte (bytes.filter fun b => p b.1) old ga = lastByte bytes old ga := by
  have hp : ∀ b : Nat × Byte, decide (p b.1 = true ∧ (b.1 == ga) = true) = (b.1 == ga) := by
    intro b
    by_cases hb : b.1 = ga <;> simp [hb, h]
  simp only [lastByte, ← List.filter_reverse, List.find?_filter, hp]

/-- A byte at an address that a filter leaves out keeps its old value. -/
theorem lastByte_filter_of_neg (bytes : List (Nat × Byte)) (p : Nat → Bool) (old : Byte) {ga : Nat} (h : p ga = false) :
    lastByte (bytes.filter fun b => p b.1) old ga = old := by
  have hnone : ((bytes.filter fun b => p b.1).reverse.find? fun b => b.1 == ga) = none := by
    simp only [List.find?_eq_none, List.mem_reverse, List.mem_filter, beq_iff_eq]
    rintro b ⟨-, hb⟩ rfl
    exact Bool.false_ne_true (h.symm.trans hb)
  rw [lastByte, hnone]
  rfl

/-- The bytes that perform are those outside the poisoned lines written in part (R325). -/
theorem performed_eq_filter (s : State) (bytes : List (Nat × Byte)) :
    performed s bytes = bytes.filter fun b => !(partLines s bytes).contains (b.1 / 64) := by
  unfold performed
  dsimp only
  split
  · next h =>
    rw [List.isEmpty_iff.mp h]
    exact (List.filter_eq_self.mpr fun _ _ => rfl).symm
  · rfl

/-- Settles O3: a write puts its performed bytes in order, and those are the bytes outside the poisoned lines written in part. -/
theorem storeThenRead : Obligations.StoreThenRead := by
  intro s bytes rel ga
  have hput : (s.store bytes rel).byte ga = lastByte (performed s bytes) (s.byte ga) ga := putBytes_get (performed s bytes) s.mem ga
  rw [hput, performed_eq_filter]
  cases hbad : (partLines s bytes).contains (ga / 64) with
  | true => simpa using lastByte_filter_of_neg bytes (fun a => !(partLines s bytes).contains (a / 64)) _ (by rw [hbad]; rfl)
  | false => simpa using lastByte_filter_of_pos bytes (fun a => !(partLines s bytes).contains (a / 64)) _ (by rw [hbad]; rfl)

/-! ### Instructions whose capability is not in force (O11) -/

/-- No breakpoint trap comes before a lone syllable that no breakpoint register matches and that is not `BRK` (R118, R123). -/
theorem breakCause_sole_eq_none {s : State} {x : Nat} {i : Instr} {o : Op} (ho : opOf i = some o) (hbrk : o.brk = none)
    (hk : bkptOf (ctxOf s x) (sole s x i) = none) : breakCause (s.ctx s.cur x) [sole s x i] = none := by
  have hop := sole_op s x i o ho
  simp [breakCause, hk, hop, hbrk]

/-- A control instruction in its place breaks no header rule (R120). -/
theorem illegalBundle_sole_eq_false {s : State} {x : Nat} {i : Instr} {o : Op} (ho : opOf i = some o) (hc : ControlOk s x i) :
    illegalBundle s s.cur x (soleHead i) [sole s x i] = false := by
  have hop := sole_op s x i o ho
  cases hctl : o.ctl with
  | false => simp [illegalBundle, soleHead, hop, hctl]
  | true =>
    obtain ⟨hpend, hlast⟩ := hc (by simp [control, ho, hctl])
    simp only [soleHead] at hlast
    simp [illegalBundle, soleHead, hop, hctl, hpend, hlast]

/-- A syllable that its privilege does not stop, but whose capability is not in force, is illegal at its slot (R8, R117, R118). -/
theorem sylFault_sole_of_noFeat {s : State} {x b : Nat} {i : Instr} {o : Op} (ho : opOf i = some o)
    (hp : barred s i = true → (ctxOf s x).level ≠ 0) (hn : needsFeat i.slot o = some b) (hf : s.hasFeat (s.partOf s.cur) b = false) :
    sylFault s s.cur x (sole s x i) = some { code := 0x03, slot := i.slot } := by
  have hop := sole_op s x i o ho
  have hslot : (sole s x i).slot = i.slot := rfl
  have hpriv : ((o.priv || o.privNow s s.cur) && (s.ctx s.cur x).level == 0) = false := by
    cases hq : (o.priv || o.privNow s s.cur) with
    | false => rfl
    | true => simpa using hp (by simpa [barred, ho] using hq)
  simp only [sylFault, Syl.priv, hop, hslot, hn, hf, Option.map_some, Option.getD_some, hpriv]
  simp

/-- Settles O11: no breakpoint and no header rule comes first, so the bundle stops with the decode fault of its one syllable. -/
theorem featureTrap : Obligations.FeatureTrap := by
  intro s x b i o hx hk ho hbrk hc hp hn hf
  rw [exec_eq_issueOne i o s ho]
  simp only [issueOne, hx, sole_eq s x i o ho, issue, breakCause_sole_eq_none ho hbrk hk, illegalBundle_sole_eq_false ho hc,
    List.findSome?_cons, sylFault_sole_of_noFeat ho hp hn hf]
  simp [stopBundle]

/-! ### The canonical form of memory along a step (O2)

`MemOk` reads three fields of the state.  `Canon` names it, `InSome`, `InOk` and `InNext` say it of the state in a result, and
`Canon.same` covers every update that leaves the three fields.  Then one lemma for each function of the model that answers a state,
in the order of the model. -/

/-- Memory, and the memory that the saves hold, is in its canonical form; a name that no tactic opens on its way. -/
def Canon (s : State) : Prop := MemOk s
/-- What holds of the value that an option holds. -/
def InSome {α : Type} (P : α → Prop) (o : Option α) : Prop := ∀ a, o = some a → P a
/-- What holds of the value of a computation that goes well. -/
def InOk {ε α : Type} (P : α → Prop) (r : Except ε α) : Prop := ∀ a, r = .ok a → P a
/-- What holds of either answer of a computation that answers a state in any case. -/
def InBoth {α : Type} (P : α → Prop) (r : Except α α) : Prop := InOk P r ∧ ∀ t, r = .error t → P t
/-- What holds of the next state of an outcome. -/
def InNext (P : State → Prop) (o : Out) : Prop := ∀ t, o = .next t → P t

section
variable {s t : State}

/-- An update that leaves memory and the saves keeps the form. -/
theorem Canon.same (h : Canon s) (hm : t.mem = s.mem := by rfl) (hc : t.checkpoint = s.checkpoint := by rfl)
    (he : t.emergency = s.emergency := by rfl) : Canon t := by
  simpa only [Canon, MemOk, hm, hc, he] using h

/-- A write of memory alone needs a canonical memory. -/
theorem Canon.withMem (h : Canon s) (hm : Memory.wf t.mem = true) (hc : t.checkpoint = s.checkpoint := by rfl)
    (he : t.emergency = s.emergency := by rfl) : Canon t := by
  obtain ⟨-, hck, hem⟩ := h
  exact ⟨hm, hc ▸ hck, he ▸ hem⟩

theorem canon_ite {c : Prop} [Decidable c] (hs : Canon s) (ht : Canon t) : Canon (if c then s else t) := by
  split
  · exact hs
  · exact ht

theorem canon_setCtx {c x : Nat} {k : Ctx} (h : Canon s) : Canon (s.setCtx c x k) := h.same
theorem canon_modCore {c : Nat} {f : Core → Core} (h : Canon s) : Canon (s.modCore c f) := h.same
theorem canon_modCtx {c x : Nat} {f : Ctx → Ctx} (h : Canon s) : Canon (s.modCtx c x f) := h.same
theorem canon_modRegs {c x : Nat} {f : Regs → Regs} (h : Canon s) : Canon (s.modRegs c x f) := h.same
theorem canon_modPart {p : Nat} {f : Part → Part} (h : Canon s) : Canon (s.modPart p f) := h.same

theorem canon_ite_fst {α : Type} {c : Prop} [Decidable c] {x y : State × α} (hx : Canon x.1) (hy : Canon y.1) :
    Canon (if c then x else y).1 := by
  split
  · exact hx
  · exact hy
theorem canon_elim {α : Type} {o : Option α} {f : α → State} (hs : Canon s) (hf : ∀ a, Canon (f a)) : Canon (o.elim s f) := by
  cases o with
  | none => exact hs
  | some a => exact hf a

/-- A fold of steps that keep the form keeps it. -/
theorem canon_foldl {α : Type} {f : State → α → State} (hf : ∀ s a, Canon s → Canon (f s a)) (l : List α) (h : Canon s) :
    Canon (l.foldl f s) := by
  induction l generalizing s with
  | nil => exact h
  | cons a l ih => exact ih (hf s a h)

end

section
variable {α β ε : Type} {P : α → Prop} {Q : β → Prop}

theorem InSome.none : InSome P none := nofun
theorem InSome.some {a : α} (h : P a) : InSome P (some a) := by rintro _ ⟨⟩; exact h
theorem InSome.any (o : Option α) : InSome (fun _ => True) o := fun _ _ => trivial
theorem InSome.bind {o : Option α} {f : α → Option β} (ho : InSome P o) (hf : ∀ a, P a → InSome Q (f a)) : InSome Q (o >>= f) := by
  intro b hb
  obtain ⟨a, ha, hfa⟩ := Option.bind_eq_some_iff.mp hb
  exact hf a (ho a ha) b hfa
theorem InSome.map {o : Option α} {f : α → β} (ho : InSome P o) (hf : ∀ a, P a → Q (f a)) : InSome Q (o.map f) := by
  intro b hb
  obtain ⟨a, ha, rfl⟩ := Option.map_eq_some_iff.mp hb
  exact hf a (ho a ha)
theorem InSome.ite {c : Prop} [Decidable c] {x y : Option α} (hx : InSome P x) (hy : InSome P y) : InSome P (if c then x else y) := by
  split
  · exact hx
  · exact hy
theorem InSome.getD {o : Option α} {a : α} (ho : InSome P o) (ha : P a) : P (o.getD a) := by
  cases o with
  | none => exact ha
  | some b => exact ho b rfl

theorem InOk.ok {a : α} (h : P a) : InOk P (.ok a : Except ε α) := by rintro _ ⟨⟩; exact h
theorem InOk.error {e : ε} : InOk P (.error e) := nofun
theorem InOk.any (r : Except ε α) : InOk (fun _ => True) r := fun _ _ => trivial
theorem InOk.bind {r : Except ε α} {f : α → Except ε β} (hr : InOk P r) (hf : ∀ a, P a → InOk Q (f a)) : InOk Q (r >>= f) := by
  cases r with
  | error e => exact InOk.error
  | ok a => exact hf a (hr a rfl)
theorem InOk.ite {c : Prop} [Decidable c] {x y : Except ε α} (hx : InOk P x) (hy : InOk P y) : InOk P (if c then x else y) := by
  split
  · exact hx
  · exact hy

theorem InBoth.ok {a : α} (h : P a) : InBoth P (.ok a) := ⟨InOk.ok h, nofun⟩
theorem InBoth.error {a : α} (h : P a) : InBoth P (.error a) := ⟨InOk.error, by rintro _ ⟨⟩; exact h⟩

end

theorem InNext.next {P : State → Prop} {t : State} (h : P t) : InNext P (.next t) := by rintro _ ⟨⟩; exact h

/-! #### Writes of memory, and what the device writes (Access, Tlb) -/

section
variable {s : State}

theorem canon_storeRaw {bytes : List (Nat × Byte)} {rel : Option Rel} (h : Canon s) : Canon (s.storeRaw bytes rel) :=
  h.withMem (putBytes_wf _ _ h.1)
theorem canon_store {bytes : List (Nat × Byte)} {rel : Option Rel} (h : Canon s) : Canon (s.store bytes rel) :=
  (canon_storeRaw (bytes := bytes) (rel := rel) h).same
theorem canon_storeNat {ga n x : Nat} {rel : Option Rel} (h : Canon s) : Canon (s.storeNat ga n x rel) := canon_store h
theorem canon_logRecord {known : List Byte} (h : Canon s) : Canon (s.logRecord known) :=
  (canon_store (rel := none) h).same
theorem canon_logEvent (h : Canon s) : Canon s.logEvent := canon_logRecord h
theorem canon_exchange {ga : Nat} (h : Canon s) : Canon (s.exchange ga) := by
  unfold State.exchange
  split
  · exact h.same
  · exact h
theorem canon_exchangeN {ga n : Nat} (h : Canon s) : Canon (s.exchangeN ga n) := by
  unfold State.exchangeN
  split
  · exact h.same
  · exact h
theorem canon_exchangeTo {dest n : Nat} (h : Canon s) : Canon (s.exchangeTo dest n) := canon_exchangeN h
theorem canon_exchangeBytes {ga n : Nat} (h : Canon s) : Canon (s.exchangeBytes ga n) := by
  unfold State.exchangeBytes
  split
  · exact canon_exchangeTo h
  · exact h

theorem canon_writeAt {x : Xl} {pairs : List (Nat × Byte)} {rel : Option Rel} (h : Canon s) : Canon (writeAt s x pairs rel) := by
  unfold writeAt
  split
  · exact canon_exchange (canon_store (canon_store h))
  · exact canon_store h
theorem canon_devicePut {x : Xl} {bytes : List Byte} (h : Canon s) : Canon (devicePut s x bytes) := canon_exchange (canon_writeAt h)

/-- A way of posting migration requests that keeps the form. -/
def PosterKeeps (post : Poster) : Prop := ∀ s p b, Canon s → Canon (post s p b).1

section
variable {post : Poster} (hp : PosterKeeps post)
include hp

theorem canon_addCounterBy {c : Nat} {e : TlbE} (h : Canon s) : Canon (addCounterBy post s c e) := by
  unfold addCounterBy
  dsimp only
  split
  · exact h
  split
  · exact h.same
  refine canon_ite (canon_storeNat h) (canon_ite (canon_storeNat ?_) ?_)
  all_goals exact hp _ _ _ (canon_storeNat h)
theorem canon_addCountersBy {c : Nat} (l : List TlbE) (h : Canon s) : Canon (addCountersBy post c s l) := by
  induction l generalizing s with
  | nil => exact h
  | cons e l ih => exact ih (canon_addCounterBy hp h)
theorem canon_dropCoreTlb {f : TlbE → Bool} {c : Nat} (h : Canon s) : Canon (dropCoreTlb post f s c) :=
  canon_ite h (canon_addCountersBy hp _ h).same
theorem canon_dropCluTlb {f : TlbE → Bool} {k : Nat} (h : Canon s) : Canon (dropCluTlb post f s k) :=
  canon_ite h (canon_addCountersBy hp _ h).same
theorem canon_dropTlbBy {dies : Nat → Bool} {f : TlbE → Bool} (h : Canon s) : Canon (dropTlbBy post s dies f) :=
  canon_foldl (fun _ _ => canon_dropCluTlb hp) _ (canon_foldl (fun _ _ => canon_dropCoreTlb hp) _ h)
theorem canon_markLineBy {die line : Nat} (h : Canon s) : Canon (markLineBy post s die line) :=
  canon_dropTlbBy hp (canon_ite h h.same)
theorem canon_noteFailBy {c : Nat} {f : XFail} (h : Canon s) : Canon (noteFailBy post s c f) := by
  unfold noteFailBy
  split
  · exact canon_markLineBy hp h
  · exact h
theorem canon_fillCoreBy {c : Nat} {e : TlbE} (h : Canon s) : Canon (fillCoreBy post s c e) := canon_addCountersBy hp _ h.same
theorem canon_countVaBy {p c va : Nat} {x : Xl} (h : Canon s) : Canon (countVaBy post s p c va x) :=
  canon_ite h (Canon.same (canon_ite h (canon_fillCoreBy hp h)))
theorem canon_deviceCount {p va : Nat} {x : Xl} (h : Canon s) : Canon (deviceCount post s p va x) := canon_countVaBy hp h
theorem canon_deviceFail {p : Nat} {f : DevFail} (h : Canon s) : Canon (deviceFail post s p f) := by
  cases f with
  | busy => exact h
  | xl f => exact canon_noteFailBy hp h
  | refused ga => exact canon_exchange h
theorem canon_ringPostBy {p : Nat} {bytes : List Byte} (h : Canon s) : InBoth Canon (ringPostBy post s p bytes) := by
  unfold ringPostBy
  dsimp only
  split
  · exact .error h
  split
  · exact .error (canon_deviceFail hp h)
  · exact .ok (canon_deviceCount hp (canon_storeNat (canon_devicePut h)))
theorem canon_postHeldBy {p : Nat} (n : Nat) (h : Canon s) : Canon (postHeldBy post p n s) := by
  induction n generalizing s with
  | zero => exact h
  | succ n ih =>
    unfold postHeldBy
    split
    · exact h
    next b rest _ =>
      obtain ⟨hok, herr⟩ := canon_ringPostBy hp (p := p) (bytes := b) (s := s.modPart p fun q => { q with ringHeld := rest }) h.same
      split
      · next t ht => exact ih (hok t ht)
      · next t ht => exact (herr t ht).same
theorem canon_ringFlushBy {p : Nat} (h : Canon s) : Canon (ringFlushBy post s p) := canon_postHeldBy hp _ h
theorem canon_ringPostOrHoldBy {p : Nat} {bytes : List Byte} (h : Canon s) : InSome Canon (ringPostOrHoldBy post s p bytes) := by
  have hf := canon_ringFlushBy hp (p := p) h
  unfold ringPostOrHoldBy
  dsimp only
  split
  · exact .none
  split
  · exact .some hf.same
  · obtain ⟨hok, herr⟩ := canon_ringPostBy hp (p := p) (bytes := bytes) hf
    split
    · next t ht => exact .some (hok t ht)
    · next t ht => exact .some (herr t ht).same

end

theorem canon_ringDrop {p : Nat} (h : Canon s) : Canon (ringDrop s p) := canon_ite h.same (canon_storeNat h)
theorem migrateN_keeps (n : Nat) : PosterKeeps (migrateN n) := by
  induction n with
  | zero => exact fun _ _ _ h => h
  | succ n ih =>
    intro s p b h
    unfold migrateN
    split
    · next t ht => exact canon_ringPostOrHoldBy ih h t ht
    · exact canon_ringDrop h
theorem migrate_keeps : PosterKeeps migrate := migrateN_keeps 4097

theorem canon_rawWrite {p va : Nat} {bytes : List Byte} (h : Canon s) : InOk Canon (rawWrite s p va bytes) := by
  unfold rawWrite
  split
  · exact .error
  · exact .ok (canon_deviceCount migrate_keeps (canon_devicePut h))
theorem canon_ringFlush {p : Nat} (h : Canon s) : Canon (ringFlush s p) := canon_ringFlushBy migrate_keeps h
theorem canon_ringPostOrHold {p : Nat} {bytes : List Byte} (h : Canon s) : InSome Canon (ringPostOrHold s p bytes) :=
  canon_ringPostOrHoldBy migrate_keeps h
theorem canon_addCounter {c : Nat} {e : TlbE} (h : Canon s) : Canon (addCounter s c e) := canon_addCounterBy migrate_keeps h
theorem canon_addCounters {c : Nat} {l : List TlbE} (h : Canon s) : Canon (addCounters c s l) := canon_addCountersBy migrate_keeps l h
theorem canon_dropTlb {dies : Nat → Bool} {f : TlbE → Bool} (h : Canon s) : Canon (dropTlb s dies f) := canon_dropTlbBy migrate_keeps h
theorem canon_markLine {die line : Nat} (h : Canon s) : Canon (markLine s die line) := canon_markLineBy migrate_keeps h
theorem canon_noteFail {c : Nat} {f : XFail} (h : Canon s) : Canon (noteFail s c f) := canon_noteFailBy migrate_keeps h
theorem canon_fillCore {c : Nat} {e : TlbE} (h : Canon s) : Canon (fillCore s c e) := canon_fillCoreBy migrate_keeps h
theorem canon_countVa {p c va : Nat} {x : Xl} (h : Canon s) : Canon (countVa s p c va x) := canon_countVaBy migrate_keeps h
theorem canon_deviceWrite {p va : Nat} {bytes : List Byte} (h : Canon s) : InBoth Canon (deviceWrite s p va bytes) := by
  unfold deviceWrite
  split
  · next t ht => exact .ok (canon_rawWrite h t ht)
  · exact .error (canon_deviceFail migrate_keeps h)
theorem canon_tryWrite {p va : Nat} {bytes : List Byte} (h : Canon s) : Canon (tryWrite s p va bytes) := by
  obtain ⟨hok, herr⟩ := canon_deviceWrite (p := p) (va := va) (bytes := bytes) h
  unfold tryWrite
  split
  · next t ht => exact hok t ht
  · next t ht => exact herr t ht
theorem canon_oweWord {p va val : Nat} (h : Canon s) : Canon (oweWord s p va val) := canon_ite h.same (canon_tryWrite h)
theorem canon_payOne {o : Owed} (h : Canon s) : Canon (payOne s o) := by
  cases o with
  | count core e => exact canon_addCounter h
  | drop p => exact canon_ringDrop h
  | word p va val => exact canon_oweWord h
theorem canon_payOwed (h : Canon s) : Canon (payOwed s) := canon_foldl (fun _ _ => canon_payOne) _ h.same
theorem canon_fillClu {k : Nat} {e : TlbE} (h : Canon s) : Canon (fillClu s k e) := canon_addCounters h.same

end

/-! #### The shared operations (Ops) -/

section
variable {s : State} {c x : Nat}

theorem canon_charge {w : Nat} (h : Canon s) : Canon (s.charge c x w) := canon_ite h h.same
theorem canon_post {a : Async} (h : Canon s) : Canon (s.post a) := h.same
theorem canon_report {a : Async} {q : Cause} (h : Canon s) : Canon (s.report a q) := canon_ite h.same (canon_ite h.same h.same)
theorem canon_logUnit {kind unit : Nat} (h : Canon s) : Canon (logUnit s c x kind unit) := by
  unfold logUnit
  split
  · exact h
  · exact canon_ite h h.same
theorem canon_logUnits {kind : Nat} {l : List Nat} (h : Canon s) : Canon (logUnits s c x kind l) := by
  induction l generalizing s with
  | nil => exact h
  | cons u l ih => exact ih (canon_logUnit h)
theorem canon_reserve {us : List (Nat × Nat)} (h : Canon s) : InSome Canon (reserve s c x us) := by
  unfold reserve
  split
  · exact .some h
  dsimp only
  split
  · exact .none
  · exact .some h.same

/-! Segments. -/

theorem canon_returnCreditsOf {p : Nat} {l : List Beat} (h : Canon s) : Canon (returnCreditsOf p s c x l) := by
  induction l generalizing s with
  | nil => exact h
  | cons b l ih => exact ih (canon_post h)
theorem canon_returnCredits {l : List Beat} (h : Canon s) : Canon (returnCredits s c x l) := canon_returnCreditsOf h
theorem canon_commitSegment (h : Canon s) : Canon (commitSegment s c x) := by
  unfold commitSegment
  split
  · exact h
  next g _ => exact (canon_returnCredits (c := c) (x := x) (l := g.beats.flatMap fun e => e.2) h).same
theorem canon_undoOne {u : Undo} (h : Canon s) : Canon (undoOne c s u) := by
  unfold undoOne
  split
  · exact (canon_storeRaw (bytes := cells (64 * u.unit) (toBytes 64 u.image)) (rel := none) h).same
  · exact h.same
  · exact h.same
theorem canon_rewind {line : Option Nat} {res : Bool} (h : Canon s) : Canon (rewind s c x line res) := by
  unfold rewind
  split
  · exact h
  · refine Canon.same (canon_foldl (fun _ _ => canon_undoOne) _ ?_)
    exact h.same

/-! Activation of contexts. -/

theorem canon_evict (h : Canon s) : Canon (evict s c) := canon_ite h h.same
theorem canon_activate (h : Canon s) : Canon (activate s c x) := by
  unfold activate
  extract_lets k old sw s1 s2 s3
  have h1 : Canon s1 := canon_ite (canon_charge h) h
  have h2 : Canon s2 := canon_ite (canon_modRegs h1) h1
  exact canon_modCore (canon_ite h2 (canon_evict h2))
theorem canon_pickNext (h : Canon s) : Canon (pickNext s c) := by
  unfold pickNext
  refine canon_ite h ?_
  split
  · exact canon_activate h
  · exact h
theorem canon_leave (h : Canon s) : Canon (leave s c x) := canon_ite (canon_pickNext h.same) h
theorem canon_chargeIdle (h : Canon s) : Canon (chargeIdle s c) := canon_ite h (canon_charge h).same
theorem canon_makeReady (h : Canon s) : Canon (makeReady s c x) := canon_pickNext (canon_chargeIdle h).same
theorem canon_freeze {d : Dep} (h : Canon s) : Canon (freeze s c x d) := canon_leave h.same
theorem canon_chargeGear {n : Nat} (h : Canon s) : Canon (chargeGear s c x n) := (canon_charge h).same
theorem canon_stopChange (h : Canon s) : Canon (stopChange s c x) := by
  unfold stopChange
  split
  · exact canon_ite (canon_chargeGear h).same h
  · exact h
theorem canon_forget (h : Canon s) : Canon (forget s c x) := by
  unfold forget
  split
  · exact canon_evict (canon_ite h.same h)
  · exact canon_evict h
theorem canon_suspendCtx {code : Nat} (h : Canon s) : Canon (suspendCtx s c x code) :=
  canon_leave (canon_stopChange (canon_ite (canon_chargeIdle h) h)).same
theorem canon_goOn (h : Canon s) : Canon (goOn s c x) := canon_ite h.same (canon_makeReady h.same)

/-! The end of a task. -/

theorem canon_flushGran {xs : List Xfer} {y : Xfer} {g : Gran} (h : Canon s) : Canon (flushGran c x xs y s g) := by
  unfold flushGran
  refine canon_ite h ?_
  extract_lets later bytes t
  have ht : Canon t := canon_store h
  split
  · exact ht
  · exact ht.same
theorem canon_flushXfers {xs l : List Xfer} (h : Canon s) : Canon (flushXfers c x xs s l) := by
  induction l generalizing s with
  | nil => exact h
  | cons y l ih => exact ih (canon_foldl (fun _ _ => canon_flushGran) _ h)
theorem canon_clearBusy {l : List Nat} (h : Canon s) : Canon (clearBusy s l) := h.same
theorem canon_endTask {aborted : Bool} (h : Canon s) : Canon (endTask s c x aborted) := by
  unfold endTask
  extract_lets k s1 k' s2 s3 ts s4 s5 s6
  have h2 : Canon s2 := canon_returnCredits (canon_clearBusy (canon_flushXfers h))
  have h3 : Canon s3 := by
    unfold s3
    split
    · exact canon_returnCredits h2
    · exact h2
  exact canon_leave (canon_forget h3.same)

/-! Trap records, causes and the context commands. -/

theorem canon_postRecord {p : Nat} {r : Rec} (h : Canon s) : InBoth Canon (postRecord s p r) := by
  obtain ⟨hok, herr⟩ := canon_deviceWrite (p := p) (va := (s.part p).tqbase + 64 * ((s.part p).tqprod % 2 ^ tqLen (s.part p).tqctl))
    (bytes := r.bytes (s.part p).tqprod) h
  unfold postRecord
  dsimp only
  split
  · exact .error h
  split
  · next t ht => exact .error (herr t ht)
  next t ht =>
    split
    · exact .ok (hok t ht).same
    · exact .ok (canon_oweWord (hok t ht).same)
theorem canon_toKloty {p : Nat} {r : Rec} (h : Canon s) : Canon (toKloty s p r) := h.same
theorem canon_postHeldEvents {p : Nat} {l : List Rec} (h : Canon s) : Canon (postHeldEvents p l s) := by
  induction l generalizing s with
  | nil => exact h
  | cons r l ih =>
    obtain ⟨hok, herr⟩ := canon_postRecord (p := p) (r := r) h
    unfold postHeldEvents
    refine canon_ite (ih h) ?_
    split
    · next t ht => exact ih (hok t ht).same
    · next t ht => exact herr t ht
theorem canon_recFlush {p : Nat} (h : Canon s) : Canon (recFlush s p) := canon_ite h (canon_postHeldEvents h)
theorem canon_postOwn (h : Canon s) : InSome Canon (postOwn s c x) := by
  unfold postOwn
  split
  · exact .none
  split
  · exact .none
  split
  · exact .none
  · next t ht => exact .some ((canon_postRecord h).1 t ht).same
theorem canon_notify {p : Nat} (h : Canon s) : Canon (notify s p) := h.same
theorem canon_postOrHold {r : Rec} (h : Canon s) : Canon (postOrHold s c x r) := by
  have hf := canon_recFlush (p := r.part) h
  obtain ⟨hok, herr⟩ := canon_postRecord (p := r.part) (r := r) hf
  unfold postOrHold
  refine canon_ite (canon_ite (canon_notify hf.same) hf.same) ?_
  split
  · next t ht => exact hok t ht
  · next t ht => exact canon_ite (canon_notify (herr t ht).same) (herr t ht).same
/-- A context's own record is posted before a bound event, as far as it can be. -/
theorem canon_flushOwn {p : Nat} (h : Canon s) :
    Canon (match postOwn s c x with | some t => recFlush t p | none => s) := by
  split
  · next t ht => exact canon_recFlush (canon_postOwn h t ht)
  · exact h
theorem canon_postEvent {p : Nat} {r : Rec} (h : Canon s) : Canon (postEvent s p r) := by
  unfold postEvent
  extract_lets f t q late room hold
  have ht : Canon t := canon_flushOwn (canon_recFlush h)
  obtain ⟨hok, herr⟩ := canon_postRecord (p := p) (r := r) ht
  refine canon_ite ht.same (canon_ite ht.same ?_)
  split
  · next u hu => exact hok u hu
  · next u hu => exact (herr u hu).same
theorem canon_takeCause {cls : Nat} {q : Cause} {w : Where} (h : Canon s) : Canon (takeCause s c x cls q w) := by
  unfold takeCause
  extract_lets k p r s1 s2 s3 busy s4 s5
  have h1 : Canon s1 := canon_ite (canon_logEvent (canon_modCore h)) h
  have h2 : Canon s2 := canon_modCtx h1
  have h3 : Canon s3 := canon_ite ((canon_postOwn h2).getD h2) h2
  have h4 : Canon s4 := canon_suspendCtx h3
  have h5 : Canon s5 := canon_modCore h4
  clear_value s5
  refine canon_ite (canon_ite ?_ ?_) (canon_ite ?_ ?_)
  · exact canon_logEvent h5.same
  · exact canon_toKloty h4
  · exact canon_postOrHold (canon_suspendCtx h3)
  · exact canon_pickNext (canon_modCtx (canon_chargeIdle (canon_postOrHold h3)))
theorem canon_endIfDue (h : Canon s) : Canon (endIfDue s c x) := canon_ite (canon_endTask h) h
theorem canon_resumeCtx {step : Bool} (h : Canon s) : Canon (resumeCtx s c x step) :=
  canon_ite (canon_ite (canon_endTask h) (canon_goOn h.same)) h
theorem canon_suspendCmd (h : Canon s) : Canon (suspendCmd s c x) := canon_ite (canon_suspendCtx h) h
theorem canon_abortCmd (h : Canon s) : Canon (abortCmd s c x) := canon_ite (canon_endTask h) h

/-- The commands of `CTXCMD` by number; every other register write touches no memory. -/
theorem canon_writeSpr {sel idx v tc tx : Nat} (h : Canon s) : Canon (writeSpr s c x sel idx v tc tx) := by
  unfold writeSpr
  dsimp only
  split
  case h_14 =>
    split
    · exact canon_resumeCtx h
    · exact canon_resumeCtx h
    · exact canon_suspendCmd h
    · exact canon_abortCmd h
    · exact h
  all_goals exact h.same

/-! Knowledge and the race detector. -/

theorem canon_acquire {scope : Nat} {r : Rel} (h : Canon s) : Canon (acquire s c scope r) := canon_ite h.same h
theorem canon_acquireOpt {r : Option Rel} (h : Canon s) : Canon (acquireOpt s c r) := by
  cases r with
  | none => exact h
  | some r => exact canon_acquire h
theorem canon_release {scope : Nat} (h : Canon s) : InSome (fun r => Canon r.1) (release s c scope) := by
  unfold release
  dsimp only
  split
  · exact .none
  · exact .some h.same
theorem canon_raceAccess {j gen task gran : Nat} {wr at_ : Bool} (h : Canon s) :
    InOk Canon (raceAccess s c j gen task gran wr at_) := .ite (.ok h.same) .error

/-! Results becoming visible, granule writes, the boundary of a cycle. -/

theorem canon_ownWrite {bytes : List (Nat × Byte)} {rel : Option Rel} {w : Where} (h : Canon s) :
    Canon (ownWrite s c x bytes rel w) := by
  have hs : Canon ((logUnits s c x 0 (unitsOf (performed s bytes))).store bytes rel) := canon_store (canon_logUnits h)
  unfold ownWrite
  dsimp only
  split
  · exact hs.same
  · exact hs.same
theorem canon_zeroUnit {kind unit : Nat} {log : Bool} (h : Canon s) : Canon (zeroUnit s c x kind unit log) := by
  unfold zeroUnit
  split
  · exact (canon_ite (canon_logUnits h) h).same
  · exact (canon_ite (canon_logUnits h) h).same
  · exact h.same
/-- Writes of matrix rows may log their units, stores and atomics write memory, registers neither. -/
theorem canon_applyRes {f : InFlight} (h : Canon s) : Canon (applyRes s c x f) := by
  unfold applyRes
  cases f.res
  case acc row v => exact canon_ite (canon_modCore (canon_logUnits h)) h
  case os row v => exact canon_ite (canon_modCore (canon_logUnits h)) h
  case lt row v => exact canon_ite (canon_modCore h) h
  case zero kind unit log => exact canon_zeroUnit h
  case store swz bytes => exact (canon_ownWrite h).same
  case cstore bytes rel => exact canon_ownWrite h
  case atom ga op w b cmp ret rel => exact canon_ite h.same (canon_ite (canon_ownWrite h).same (canon_ownWrite h).same)
  case spr sel idx v tc tx => exact canon_writeSpr h
  all_goals exact h.same
theorem canon_applyAll {l : List InFlight} (h : Canon s) : Canon (applyAll c x s l) := by
  induction l generalizing s with
  | nil => exact h
  | cons f l ih => exact ih (canon_applyRes h)
theorem canon_writeGrans {y : Xfer} {l : List Gran} (h : Canon s) : Canon (writeGrans c x y s l) := by
  induction l generalizing s with
  | nil => exact h
  | cons g l ih => exact canon_ite (ih h) (canon_ite (ih (canon_ite h h.same)) (ih (canon_ownWrite h).same))
theorem canon_writeDue {t : Nat} (h : Canon s) : Canon (writeDue s c x t) := by
  have hg := fun l => canon_foldl (f := fun s (y : Xfer) => writeGrans c x y s y.grans) (fun _ _ => canon_writeGrans) l h
  exact canon_ite (hg _) (hg _).same
theorem canon_settle (h : Canon s) : Canon (settle s c x) :=
  canon_foldl (fun _ _ => canon_applyAll) _ (canon_modRegs (canon_writeDue (canon_modRegs h)))
theorem canon_rewindNow {line : Option Nat} {res : Bool} (h : Canon s) : Canon (rewindNow s c x line res) := by
  unfold rewindNow
  extract_lets t
  exact canon_pickNext (canon_writeDue (canon_logEvent (canon_rewind (canon_chargeIdle h))))

end

/-! #### The issue of a bundle (Issue) -/

/-- An operation whose effect keeps the form. -/
def Op.Keeps (o : Op) : Prop := ∀ j s, Canon s → InOk Canon (o.run j s)
/-- Syllables whose operations keep the form. -/
def SylsKeep (syls : List Syl) : Prop := ∀ y ∈ syls, ∀ o, y.op = some o → o.Keeps

section
variable {s : State} {c x : Nat}

theorem canon_emit {j : Iss} {lat : Nat} {r : Res} (h : Canon s) : Canon (j.emit lat r s) := h.same
theorem canon_reserveOf {j : Iss} {us : List (Nat × Nat)} (h : Canon s) : InOk Canon (j.reserve us s) := by
  unfold Iss.reserve
  split
  · next t ht => exact .ok (canon_reserve h t ht)
  · exact .error
theorem canon_runAll {mk : Syl → Iss} {syls : List Syl} (hk : SylsKeep syls) (h : Canon s) : InOk Canon (runAll mk s syls) := by
  induction syls generalizing s with
  | nil => exact .ok h
  | cons y rest ih =>
    have hrest := fun {s} => ih (s := s) fun z hz => hk z (List.mem_cons_of_mem _ hz)
    unfold runAll
    split
    · exact hrest h
    next o ho =>
      split
      · exact .error
      split
      · exact .error
      · next t ht => exact hrest (hk y (List.mem_cons_self ..) o ho _ _ h t ht)
theorem canon_complete {len : Nat} (h : Canon s) : Canon (complete s c x len) := by
  unfold complete
  dsimp only
  split
  · exact h.same
  · exact canon_ite h.same (canon_ite h.same h.same)
theorem canon_advance {hd : Head} (h : Canon s) : Canon (advance s c x hd) :=
  canon_ite (canon_modRegs (canon_settle h)) (canon_complete (canon_ite (canon_commitSegment (canon_settle h)) (canon_settle h)))
theorem canon_userTrap {w : Where} {code : Nat} (h : Canon s) : Canon (userTrap s c x w code) := canon_takeCause h
theorem canon_stopBundle {slot : Nat} {e : Stop} (h : Canon s) : Canon (stopBundle s c x slot e) := by
  unfold stopBundle
  dsimp only
  split
  · exact canon_takeCause (canon_ite (canon_markLine h) h)
  · split
    · exact canon_ite (canon_takeCause h) (canon_rewindNow h)
    · exact canon_takeCause h
  · exact h.same
  · exact canon_takeCause (canon_exchange h)
theorem canon_noteIssued {w : Nat} (h : Canon s) : Canon (noteIssued s c w) := canon_ite h h.same
/-- What a commit leaves to the boundary: the charge and the context's own records of its issue, then the cycle. -/
theorem canon_commit {hd : Head} {mk : Syl → Iss} {syls : List Syl} {t : State} (h : Canon t) :
    Canon (commit s c x hd mk syls t) := by
  unfold commit
  extract_lets k w n s1 s2 s3 s4 s5
  have h1 : Canon s1 := canon_charge (canon_ite h (canon_noteIssued h))
  have h3 : Canon s3 := canon_advance (canon_modCtx h1)
  have h4 : Canon s4 := by
    unfold s4
    split
    · exact canon_userTrap h3
    · exact h3
  have h5 : Canon s5 := canon_endIfDue h4
  split
  · exact canon_ite (canon_freeze h5) h5
  · exact h5
theorem canon_residueStop {slot lane : Nat} (h : Canon s) : Canon (residueStop s c x slot lane) := by
  unfold residueStop
  extract_lets s1 s2 k w
  have h2 : Canon s2 := h.same
  split
  · exact canon_ite (canon_rewindNow h2) (canon_takeCause h2)
  · exact canon_takeCause h2
theorem canon_perform {hd : Head} {mk : Syl → Iss} {syls : List Syl} (hk : SylsKeep syls) (h : Canon s) :
    Canon (perform s c x hd mk syls) := by
  unfold perform
  extract_lets k s0
  have h0 : Canon s0 := canon_ite h.same h
  split
  · split
    · exact canon_stopBundle h
    · exact canon_stopBundle h0
  next t ht =>
    split
    · exact canon_residueStop h0
    · exact canon_commit (canon_runAll hk h0 t ht)
theorem canon_issue {hd : Head} {syls : List Syl} {bnd : List (Nat × Bound)} (hk : SylsKeep syls) (h : Canon s) :
    Canon (issue s c x hd syls bnd) := by
  unfold issue
  dsimp only
  split
  · exact canon_takeCause h
  refine canon_ite (canon_stopBundle h) ?_
  split
  · exact canon_stopBundle h
  split
  · exact canon_freeze h
  · exact canon_perform hk h
theorem canon_illegalStop {syls : List Syl} (h : Canon s) : Canon (illegalStop s c x syls) := by
  unfold illegalStop
  dsimp only
  split
  · exact canon_takeCause h
  · exact canon_stopBundle h
theorem canon_fetchStop {syls : List Syl} {e : Stop} (h : Canon s) : Canon (fetchStop s c x syls e) := by
  unfold fetchStop
  split
  · exact canon_ite (canon_illegalStop h) (canon_stopBundle h)
  · exact canon_stopBundle (canon_exchange h)
  · exact canon_stopBundle h
theorem canon_issueOne {i : Instr} {o : Op} (hk : o.Keeps) (h : Canon s) : InNext Canon (issueOne i o s) := by
  have hs : ∀ x, SylsKeep [soleSyl s s.cur x i o] := by
    intro x y hy o' ho
    obtain rfl := List.mem_singleton.mp hy
    obtain rfl := Option.some.inj ho
    exact hk
  unfold issueOne
  split
  · exact .next h
  · next x _ => exact .next (canon_issue (hs x) h)

end

/-! #### Address registers, control and synchronisation (Address, Branch) -/

section
variable {s : State} {j : Iss}

theorem canon_clearMask {mask : Nat} {adr : Bool} (n : Nat) (h : Canon s) : Canon (clearMask j mask adr n s) := by
  induction n with
  | zero => exact h
  | succ n ih => exact canon_ite (canon_ite ih.same ih.same) ih
theorem canon_pendTo {k : PendKind} (h : Canon s) : Canon (pendTo j k s) := h.same
theorem canon_postArrival {bar phase : Nat} {cores : List Nat} {r : Rel} (h : Canon s) :
    Canon (postArrival j s bar phase cores r) := h.same
theorem canon_postSignals {b : Async} {group bar phase : Nat} {l : List Nat} (h : Canon s) :
    Canon (postSignals b group bar phase l s) := by
  induction l generalizing s with
  | nil => exact h
  | cons peer l ih => exact ih (canon_post h)
theorem canon_noteJoin (h : Canon s) : Canon (noteJoin j s) := h.same
theorem canon_issRelease {scope : Nat} (h : Canon s) : InOk (fun r => Canon r.1) (j.release scope s) := by
  unfold Iss.release
  split
  · next r hr => exact .ok (canon_release h r hr)
  · exact .error
theorem canon_cwRelease {w : CWord} (h : Canon s) : InOk (fun r => Canon r.1) (j.cwRelease w s) := by
  unfold Iss.cwRelease
  extract_lets far w' stamp
  have hstamp : ∀ r, Canon r.1 → InOk (fun r => Canon r.1) (stamp r) := fun ⟨s, w⟩ h =>
    .ite (.bind (canon_issRelease h) fun _ hr => .ok hr) (.ok h)
  exact .ite (.bind (P := fun r => Canon r.1) (.bind (canon_issRelease h) fun _ hr => .ok hr) hstamp) (hstamp (_, _) h)

theorem keeps_opAmov {ad as : Nat} {str : Bool} : (opAmov ad as str).Keeps := fun _ _ h => .ok (canon_ite h.same h.same)
theorem keeps_opAclr {mask : Nat} {adr : Bool} : (opAclr mask adr).Keeps := fun _ _ h => .ok (canon_clearMask 16 h)
theorem keeps_opLoop {lvl lcn off : Nat} {pin : Bool} : (opLoop lvl lcn pin off).Keeps := fun _ _ h =>
  .ite .error (.ite .error (.ok (canon_pendTo (canon_modRegs (canon_ite (canon_modCore h) h)))))
theorem keeps_opEndk : opEndk.Keeps := fun _ _ h => .ite .error (.ok (canon_pendTo h))
theorem keeps_opBarv {e : Option Nat} {bar gn scope tset : Nat} : (opBarv e bar gn scope tset).Keeps := fun _ _ h =>
  .ite .error (.bind (.any _) fun _ _ => .bind (canon_issRelease h) fun _ hr => .ok
    (canon_noteJoin (canon_postSignals (canon_postArrival hr))))
theorem keeps_opBinit {e : Option Nat} {bar gn : Nat} : (opBinit e bar gn).Keeps := fun _ _ h =>
  .bind (.any _) fun _ _ => .ok h.same
theorem keeps_opMonwait {e : Option Nat} {mon gn : Nat} : (opMonwait e mon gn).Keeps := fun _ _ h =>
  .ite .error (.ok (canon_acquireOpt h))
theorem keeps_opDlchk {pd gn : Nat} {t : Bool} : (opDlchk pd gn t).Keeps := fun _ _ h => .ite .error (.ok h.same)
theorem keeps_opLaunch {a pri : Nat} : (opLaunch a pri).Keeps := fun _ _ h =>
  .ite .error (.bind (.any _) fun _ _ => .ok h.same)

/-! #### Own and posted stores, source reads, copies (Scratch, Copy) -/

theorem canon_postParts {s0 : State} {done : List (Nat × List Nat)} {pages : List Nat} {l : List (List (Nat × Byte))} (h : Canon s) :
    Canon (postParts j s0 s done pages l) := by
  induction l generalizing s done pages with
  | nil => exact h
  | cons vbs l ih => exact ih (canon_post h)
theorem canon_storeAll {swz : Bool} {acc : List (List (Nat × Byte))} (h : Canon s) : InOk Canon (storeAll j s swz acc) := by
  unfold storeAll
  dsimp only
  split
  · exact .error
  split
  · exact .error
  · refine .ite .error (.bind (canon_reserveOf h) fun t ht => .ok (canon_charge (canon_postParts ?_)))
    exact canon_ite ht (canon_emit ht.same)
theorem canon_chooseImages {l : List Nat} (h : Canon s) : Canon (chooseImages j s l).1 := by
  induction l generalizing s with
  | nil => exact h
  | cons base l ih =>
    unfold chooseImages
    refine ih ?_
    split
    · exact h
    · exact h.same
theorem canon_sourceBytes {gas : List Nat} (h : Canon s) : Canon (sourceBytes j s gas).1 := canon_chooseImages h
theorem canon_readSource {align n va : Nat} (h : Canon s) : InOk (fun r => Canon r.1) (readSource j s align n va) :=
  .ite .error (.ite .error (.bind (.any _) fun _ _ => .bind (.any _) fun _ _ => .ok (canon_sourceBytes h)))
theorem canon_copyStart {n : Nat} {p : Plan} (h : Canon s) : Canon (copyStart j s n p) := by
  unfold copyStart
  extract_lets im elems s1 sched lat vas after far s2 s3
  have h1 : Canon s1 := canon_chooseImages h
  have h2 : Canon s2 := canon_charge h1
  exact canon_post (canon_ite (canon_modRegs h2) h2)
theorem canon_copyRun {plan : Iss → State → Except Stop Plan} (h : Canon s) : InOk Canon (copyRun plan j s) := by
  unfold copyRun
  refine .bind (.any _) fun p _ => .bind (.any _) fun _ _ => ?_
  extract_lets n start
  have hstart : ∀ u, InOk Canon (start u) := fun _ => .bind (canon_cwRelease h) fun _ hr => .ok (canon_copyStart hr)
  exact .ite (.bind (.any _) fun u _ => hstart u) (hstart ())

theorem keeps_opSeqgo {d gs c : Nat} : (opSeqgo d gs c).Keeps := fun _ _ h => canon_copyRun h
theorem keeps_opTmov {d gs c sz : Nat} : (opTmov d gs c sz).Keeps := fun _ _ h => canon_copyRun h
theorem keeps_opMcast {e d gs c sz : Nat} : (opMcast e d gs c sz).Keeps := by
  intro j s h
  refine .bind (.any _) fun cw _ => .ite .error (.ite .error (.ite .error (.ite .error (.ite .error ?_))))
  split
  · exact .error
  refine .ite .error (.ite .error ?_)
  extract_lets n start
  have hstart : ∀ u, InOk Canon (start u) := fun _ => .bind (canon_cwRelease h) fun _ hr => .ok (canon_post (canon_charge hr))
  exact .ite (.bind (.any _) fun u _ => hstart u) (hstart ())

/-! #### Flags, bounds and the results of vector instructions (Flags) -/

theorem canon_flagsOut {lat : Nat} {fl : List Nat} (h : Canon s) : InOk Canon (flagsOut j lat fl s) :=
  .ite .error (.ok (canon_ite h (canon_emit h)))
theorem canon_boundEvent {n el : Nat} (h : Canon s) : Canon (boundEvent j n el s) := canon_postEvent h
theorem canon_emitV {lat vd tag : Nat} {u : Bool} {es : List (Nat × Bool)} (h : Canon s) : InOk Canon (emitV j lat vd tag u es s) := by
  unfold emitV
  dsimp only
  refine .ite (.ok (canon_emit h)) ?_
  split
  · exact .ok (canon_emit h)
  split
  · exact .ok (canon_emit (canon_boundEvent h))
  · exact .ok (canon_emit h)
  · exact .error
theorem canon_partOut {lat vd tag : Nat} {u : Bool} {f : Nat → Option (Nat × Nat)} (h : Canon s) :
    InOk Canon (partOut j lat vd tag u f s) := .bind (canon_flagsOut h) fun _ ht => canon_emitV ht
theorem canon_maskedOut {lat vd tag mk : Nat} {u : Bool} {f : Nat → Nat × Nat} (h : Canon s) :
    InOk Canon (maskedOut j lat vd tag mk u f s) := canon_partOut h
theorem canon_wholeOut {lat vd tag : Nat} {u : Bool} {f : Nat → Nat × Nat} (h : Canon s) :
    InOk Canon (wholeOut j lat vd tag u f s) := canon_partOut h

end

/-! #### Scalar and privileged instructions (Scalar, Privileged) -/

section
variable {s : State} {j : Iss}

theorem keeps_opG {p lat d : Nat} {pn : Bool} {f : Regs → Word} : (opG p pn lat d f).Keeps := fun _ _ h => .ok (canon_ite h.same h)
theorem keeps_opBin {lat d a b p : Nat} {pn : Bool} {e : Option Nat} {f : Word → Word → Word} : (opBin lat f e d a b p pn).Keeps :=
  keeps_opG
theorem keeps_opP {pd : Nat} {f : Regs → Bool} : (opP pd f).Keeps := fun _ _ h => .ok h.same
theorem keeps_opCmp {e : Option Nat} {pd cond a b p : Nat} {pn u : Bool} : (opCmp e pd cond a b p pn u).Keeps :=
  fun _ _ h => .ok (canon_ite h.same h)
theorem keeps_opSrd {d sr idx p : Nat} {pn : Bool} : (opSrd d sr idx p pn).Keeps :=
  fun _ _ h => .ok (canon_ite (canon_ite h.same h.same) h)
theorem canon_swrRun {sr idx : Nat} {v : Word} (h : Canon s) : InOk Canon (swrRun j s sr idx v) :=
  .ite (.ite .error (.ok h.same)) (.ok h.same)
theorem keeps_opSwr {a sr idx p : Nat} {pn : Bool} : (opSwr a sr idx p pn).Keeps := fun _ _ h => .ite (canon_swrRun h) (.ok h)

theorem keeps_opEret : opEret.Keeps := fun _ _ h => .ite (.ok (canon_pendTo h)) .error
theorem keeps_opSrdp {d sr idx : Nat} : (opSrdp d sr idx).Keeps := fun _ _ h => .ite .error (.ite (.ok h.same) (.ok h.same))
theorem keeps_opSwrp {a sr idx : Nat} : (opSwrp a sr idx).Keeps := fun _ _ h =>
  .ite (canon_swrRun h) (.ite .error (.ite .error (.ite (.ite .error (.ite .error (.ok h.same))) (.ite .error (.ok h.same)))))
theorem canon_runTlbinv {kind a c : Nat} (h : Canon s) : InOk Canon (runTlbinv kind a c j s) :=
  .bind (.any _) fun _ _ => .bind (.any _) fun _ _ => .bind (canon_cwRelease h) fun _ hr => .ok (canon_post (canon_charge hr))
theorem canon_setBusy {b : Bool} {tc x : Nat} (h : Canon s) : Canon (setBusy b tc s x) := h.same
theorem canon_runSave {core : Bool} {t a c : Nat} (h : Canon s) : InOk Canon (runSave core t a c j s) :=
  .bind (.any _) fun _ _ => .bind (canon_cwRelease h) fun _ hr => .ok (canon_ite
    (canon_foldl (fun _ _ => canon_setBusy) _ (canon_foldl (fun _ _ => canon_suspendCmd) _ (canon_post hr))) (canon_post hr))
theorem canon_runLoad {core : Bool} {t a c : Nat} (h : Canon s) : InOk Canon (runLoad core t a c j s) :=
  .bind (.any _) fun _ _ => .bind (canon_cwRelease h) fun _ hr => .ok (canon_ite
    (canon_foldl (fun _ _ => canon_setBusy) _ (canon_post hr)) (canon_post hr))

/-! Trace blocks (R308, R309). -/

theorem canon_readVa {who : Async} {c lvl va n : Nat} (h : Canon s) : Canon (readVa who s c lvl va n).1 := by
  unfold readVa
  split
  · exact canon_report h
  · split
    · exact canon_exchange h
    · exact canon_exchange (canon_countVa h)
  · exact canon_noteFail h
theorem canon_readVas {who : Async} {c lvl va : Nat} (n : Nat) (h : Canon s) : Canon (readVas who c lvl va n s).1 := by
  induction n with
  | zero => exact h
  | succ n ih => exact canon_readVa ih
theorem canon_traceWriteGo {p n va : Nat} {bs : List Byte} (h : Canon s) : Canon (traceWrite.go p s n va bs) := by
  induction n generalizing s va bs with
  | zero => exact h
  | succ n ih => exact ih (canon_tryWrite h)
theorem canon_traceWrite {p : Nat} {bytes : List Byte} (h : Canon s) : Canon (traceWrite s p bytes) :=
  canon_ite h (canon_ite h.same (canon_modPart (canon_traceWriteGo h)))
theorem canon_traceScan {who : Async} {p base used : Nat} (n : Nat) {pos : Nat} {cores : List Nat} {st : KV (List Nat)} (h : Canon s) :
    Canon (traceScan who p base used n s pos cores st).1 := by
  induction n generalizing s pos cores st with
  | zero => exact h
  | succ n ih =>
    have hu := canon_readVas (who := who) (c := (s.part p).cfg.control) (lvl := 1) (va := base + pos) 2 h
    unfold traceScan
    dsimp only
    split
    · exact ih (canon_readVas _ hu)
    · split
      · exact ih hu
      · exact ih hu
    · exact ih hu
    · exact hu
theorem canon_traceOff {p : Nat} (h : Canon s) : Canon (traceOff s p) := canon_modPart (canon_ite (canon_oweWord h) h)
theorem canon_runTrace {r : TraceReq} (h : Canon s) : Canon (runTrace r s) := by
  unfold runTrace
  extract_lets p who w s1
  have h1 : Canon s1 := canon_readVas _ h
  split
  · exact h1.same
  next base size used _ =>
    extract_lets sc t first t' s2
    have hsc : Canon sc.1 := by
      unfold sc
      split
      · exact canon_traceScan _ h1
      · exact h1
    have h2 : Canon s2 := canon_modPart (canon_ite (canon_readVa hsc) hsc)
    exact canon_ite (canon_traceWrite h2) h2
theorem canon_traceReq {r : TraceReq} (h : Canon s) : Canon (r.run s) := canon_ite (canon_traceOff h) (canon_runTrace h)
theorem canon_runTraces {p : Nat} {l : List TraceReq} (h : Canon s) : Canon (runTraces p l s) := by
  induction l generalizing s with
  | nil => exact h.same
  | cons r l ih => exact canon_ite h.same (ih (canon_traceReq h))
theorem canon_payTraces {p : Nat} (h : Canon s) : Canon (payTraces s p) := canon_ite h (canon_runTraces h)
theorem keeps_opTrcctl {mode : Nat} {va : Iss → Nat} : (opTrcctl mode va).Keeps := fun _ _ h => .ok (canon_runTraces h)

/-! #### Channels, near-memory commands, fences, atomics, collectives (Comm) -/

theorem canon_postBeats {bind : SendBind} {ch : Nat} {l : List (BitVec 512)} (h : Canon s) : Canon (postBeats j bind ch s l) := by
  induction l generalizing s with
  | nil => exact h
  | cons d l ih => exact ih (canon_post h)
theorem canon_sendBeats {ch : Nat} {bind : SendBind} {l : List (BitVec 512)} (h : Canon s) : Canon (sendBeats j s ch bind l) :=
  canon_charge (canon_postBeats h.same)
theorem keeps_opSend {ch vs nb : Nat} : (opSend ch vs nb).Keeps := fun _ _ h =>
  .bind (.any _) fun _ _ => .bind (.any _) fun _ _ => .ok (canon_sendBeats h)
theorem keeps_opSendMem {ch a nb : Nat} : (opSendMem ch a nb).Keeps := fun _ _ h =>
  .bind (.any _) fun _ _ => .bind (canon_readSource h) fun _ hr => .bind (.any _) fun _ _ => .ok (canon_sendBeats hr)
theorem canon_takeBeats {ch : Nat} {bs : List Beat} (h : Canon s) : Canon (takeBeats j s ch bs) := by
  unfold takeBeats
  dsimp only
  split
  · exact h.same
  · exact canon_returnCredits h.same
theorem keeps_opRecv {e : Option Nat} {ch vd nb tag gn : Nat} : (opRecv e ch vd nb tag gn).Keeps := fun _ _ h =>
  .bind (.any _) fun _ _ => .ok (canon_emit (canon_takeBeats h))
theorem keeps_opRecvMem {e : Option Nat} {ch a nb gn : Nat} : (opRecvMem e ch a nb gn).Keeps := fun _ _ h =>
  .bind (.any _) fun _ _ => .bind (.any _) fun _ _ => .bind (canon_reserveOf h) fun _ ht => .ok (canon_emit (canon_takeBeats ht))
theorem keeps_opNmcmd {a c : Nat} : (opNmcmd a c).Keeps := by
  intro j s h
  refine .bind (.any _) fun cw _ => .bind (canon_readSource h) fun r hr => .ite .error ?_
  extract_lets d n start
  have hstart : ∀ u, InOk Canon (start u) := fun _ => .bind (.any _) fun _ _ => .bind (canon_cwRelease hr) fun _ hq =>
    .ok (canon_charge (canon_modCtx (canon_post hq)))
  exact .ite (hstart ()) (.bind (.any _) fun u _ => hstart u)
theorem keeps_opNmfence : opNmfence.Keeps := fun _ _ h => .ite (.ok h.same) (.ok h.same)
theorem canon_fenceAcquire {scope : Nat} {l : List Rel} (h : Canon s) : Canon (fenceAcquire j scope s l) := by
  induction l generalizing s with
  | nil => exact h
  | cons r l ih => exact ih (canon_ite (canon_acquire h) h)
theorem keeps_opFence {scope : Nat} : (opFence scope).Keeps := fun _ _ h =>
  .bind (canon_issRelease (canon_fenceAcquire h)) fun _ hr => .ok (canon_modCtx hr)
theorem keeps_opStamp {e : Option Nat} {scope a gv : Nat} : (opStamp e scope a gv).Keeps := fun _ _ h =>
  .ite .error (.bind (.any _) fun _ _ => .ite
    (.bind (canon_reserveOf h) fun _ ht => .bind (canon_issRelease ht) fun _ hr => .ite
      (.ok (canon_emit (canon_noteJoin hr))) (.ok (canon_noteJoin (canon_post (canon_logUnits hr)))))
    (.bind (.any _) fun _ _ => .bind (canon_issRelease h) fun _ hr => .ok (canon_noteJoin (canon_charge (canon_post hr)))))
theorem keeps_opMonarm {mon a : Nat} : (opMonarm mon a).Keeps := by
  intro j s h
  refine .ite .error (.bind (.any _) fun _ _ => ?_)
  dsimp only
  split
  · exact .bind (.any _) fun _ _ => .ok h.same
  · exact .ok (canon_modCtx (canon_post h))
theorem canon_addXfer {lat claim : Nat} {gs : List Gran} (h : Canon s) : Canon (addXfer j s lat claim gs) := h.same
theorem canon_postAtomic {remote : Bool} {cls op w a b : Nat} {ret : List Nat} (h : Canon s) :
    Canon (postAtomic j s remote cls op w a b ret) := canon_post (canon_ite h (canon_addXfer h))
theorem keeps_opAtom {op w a b rt : Nat} : (opAtom op w a b rt).Keeps := fun _ _ h =>
  .bind (.any _) fun _ _ => .ite (.bind (canon_reserveOf h) fun _ ht => .ok (canon_emit ht))
    (.bind (.any _) fun _ _ => .ite .error (.ite .error (.bind (.any _) fun _ _ => .ok (canon_postAtomic h))))
theorem keeps_opAtomr {op w a b rt : Nat} : (opAtomr op w a b rt).Keeps := fun _ _ h =>
  .bind (.any _) fun _ _ => .ite .error (.ite .error (.ite .error (.bind (.any _) fun _ _ =>
    .ok (canon_postAtomic (canon_charge h)))))
theorem canon_shelfRequest {rt : Nat} {k : List Nat → OpK} (h : Canon s) : InOk Canon (shelfRequest j s rt k) :=
  .ite .error (.bind (.any _) fun _ _ => .bind (.any _) fun _ _ => .ok (canon_post (canon_addXfer h)))
theorem keeps_opBndset {bd lo hi mode : Nat} {fk : Bool} : (opBndset bd lo hi mode fk).Keeps := fun _ _ h => .ite .error (.ok h.same)
theorem keeps_opCtset {ct a : Nat} : (opCtset ct a).Keeps := fun _ _ h =>
  .bind (canon_readSource h) fun _ hr => .ite (.ok (canon_emit hr)) .error
theorem keeps_opColl {a c : Nat} : (opColl a c).Keeps := by
  intro j s h
  refine .bind (.any _) fun cw _ => .bind (canon_readSource h) fun r hr => .ite .error
    (.bind (.any _) fun _ _ => .bind (.any _) fun _ _ => ?_)
  extract_lets n start
  have hstart : ∀ gas, InOk Canon (start gas) := by
    refine fun gas => .bind (.any _) fun _ _ => .bind (canon_cwRelease ?_) fun _ hq => .ok (canon_post (canon_charge hq))
    split
    · exact hr
    · exact canon_sourceBytes hr
  exact .ite (.bind (.any _) fun gas _ => hstart gas) (hstart [])
theorem canon_postWalks {va : Nat} (n : Nat) (h : Canon s) : Canon (postWalks j va s n) := by
  induction n with
  | zero => exact h
  | succ n ih => exact canon_post ih
theorem keeps_opPref {a sz : Nat} : (opPref a sz).Keeps := fun _ _ h => .ok (canon_postWalks _ h)

end

/-! #### Accesses at their endpoint and the ends of operations (Endpoint) -/

section
variable {s : State} {a : Async}

theorem canon_event {r : Option State} (h : Canon s) (hr : InSome Canon r) : InNext Canon (event s r) := .next (hr.getD h)
theorem canon_onOp {id : Nat} {f : Async → Option State} (h : Canon s) (hf : ∀ a, InSome Canon (f a)) : InNext Canon (onOp s id f) :=
  canon_event h (.bind (.any _) fun a _ => hf a)

theorem canon_dropOp {id : Nat} (h : Canon s) : Canon (s.dropOp id) := h.same
theorem canon_setOp (h : Canon s) : Canon (s.setOp a) := h.same
theorem canon_sendOn {d : Nat} (h : Canon s) : Canon (s.sendOn d) := h.same
theorem canon_heard {d : Nat} (h : Canon s) : Canon (s.heard d) := h.same
theorem canon_endpoint {x : Xl} {va : Nat} {wr at_ : Bool} (h : Canon s) : InOk Canon (endpoint s a x va wr at_) := by
  unfold endpoint
  refine .ite .error (.ite (.ok h) ?_)
  split
  · exact .error
  · next t ht => exact .ok (canon_raceAccess h t ht)
theorem canon_counted {va : Nat} {x : Xl} (h : Canon s) : Canon (counted s a va x) := canon_ite h (canon_countVa h)
theorem canon_killXfer (h : Canon s) : Canon (killXfer s a) := canon_ite h.same h
theorem canon_turnedAway {k : AccKind} {va : Nat} (h : Canon s) : Canon (turnedAway s a k va) := by
  unfold turnedAway
  split
  · exact canon_ite (canon_exchange h) h
  · exact h
theorem canon_noteMiss {k : AccKind} {va : Nat} {f : XFail} (h : Canon s) : Canon (noteMiss s a k va f) :=
  canon_turnedAway (canon_noteFail h)
theorem canon_failOp {q : Cause} (h : Canon s) : Canon (failOp s a q) :=
  canon_dropOp (canon_report (canon_killXfer (canon_ite (canon_markLine h) h)))
theorem canon_consumeFar {line va : Nat} {shelf : Bool} {copy : Option Nat} (h : Canon s) :
    Canon (consumeFar s a line va shelf copy) := by
  unfold consumeFar
  refine canon_ite ?_ (canon_failOp h)
  split
  · exact canon_ite (canon_failOp h) (canon_rewindNow h)
  · exact canon_failOp h
theorem canon_xferData {pairs : List (Nat × Byte)} (h : Canon s) : Canon (xferData s a pairs) := by
  unfold xferData
  refine canon_ite ?_ (canon_writeDue (canon_modRegs h))
  dsimp only
  split
  · exact canon_store h
  · exact canon_report (canon_store h)
theorem canon_signalPeers {cw : CWord} (h : Canon s) : Canon (signalPeers s a cw) := canon_postSignals h
theorem canon_finish {cw : CWord} (h : Canon s) : Canon (finish s a cw) := by
  unfold finish
  have hs : Canon (signalPeers s a cw) := canon_signalPeers h
  dsimp only
  split
  · exact canon_setOp hs
  · exact canon_setOp hs
  · exact canon_dropOp hs

/-! #### Posted stores, stamps, atomics and monitor reads (Engines) -/

theorem canon_learnAt {r : Rel} {f : Nat × Nat} (h : Canon s) : Canon (learnAt a r s f) :=
  canon_ite h (canon_acquire (c := a.core) (scope := f.1) (r := r) h).same
theorem canon_learn {r : Rel} (h : Canon s) : Canon (learn a s r) := by
  have hf := fun l => canon_foldl (f := learnAt a r) (fun _ _ => canon_learnAt) l h
  exact canon_ite h (canon_ite (canon_modCtx (hf _)) (hf _))
/-- An access whose effect keeps the form. -/
def Posted.Keeps (p : Posted) : Prop := ∀ s x, Canon s → Canon (p.effect s x)
theorem postedWrite_keeps {bytes : List (Nat × Byte)} {rel : Option Rel} : (postedWrite a bytes rel).Keeps := by
  intro s x h
  unfold postedWrite
  dsimp only
  split
  · exact canon_consumeFar h
  · exact canon_dropOp (canon_writeAt h)
theorem postedAtom_keeps {remote : Bool} {va op w b cmp : Nat} {ret : List Nat} {rel : Option Rel} :
    (postedAtom a remote va op w b cmp ret rel).Keeps := by
  intro s x h
  refine canon_ite (canon_consumeFar h) (canon_dropOp (canon_ite (canon_writeAt ?_) (canon_xferData (canon_writeAt ?_))))
  all_goals exact canon_elim h fun r => canon_foldl (fun _ _ => canon_learn) _ h
theorem posted_keeps {p : Posted} (hp : a.posted = some p) : p.Keeps := by
  unfold Async.posted at hp
  split at hp
  · exact Option.some.inj hp ▸ postedWrite_keeps
  · exact Option.some.inj hp ▸ postedWrite_keeps
  · exact Option.some.inj hp ▸ postedWrite_keeps
  · exact Option.some.inj hp ▸ postedAtom_keeps
  · cases hp
theorem canon_sendOut {x : Xl} (h : Canon s) : Canon (sendOut s a x) := by
  unfold sendOut
  split
  · exact canon_setOp (canon_sendOn h)
  · exact h
theorem canon_postedAccess {p : Posted} (hp : p.Keeps) (h : Canon s) : InSome Canon (postedAccess s a p) := by
  unfold postedAccess
  refine .ite .none ?_
  split
  · exact .none
  · exact .some (canon_failOp (canon_noteMiss h))
  · exact .some (canon_failOp h)
  split
  · exact .some (canon_failOp h)
  refine .ite (.some (canon_sendOut (canon_counted h))) (.ite (.some (canon_failOp h)) ?_)
  split
  · exact .some (canon_failOp h)
  · next t ht => exact .some (hp _ _ (canon_counted (canon_endpoint h t ht)))
theorem canon_accessOf (h : Canon s) : InSome Canon (a.posted.bind (postedAccess s a)) := by
  intro t ht
  obtain ⟨p, hp, hpt⟩ := Option.bind_eq_some_iff.mp ht
  exact canon_postedAccess (posted_keeps hp) h t hpt
theorem canon_execPostedStorePerform {id : Nat} (h : Canon s) : InNext Canon (execPostedStorePerform id s) := by
  refine canon_onOp h fun a => ?_
  split
  · exact canon_accessOf h
  · exact .none
theorem canon_ownStamp {bytes : List (Nat × Byte)} {r : Rel} (h : Canon s) : Canon (ownStamp s a bytes r) := by
  unfold ownStamp
  split
  · exact canon_ownWrite h
  dsimp only
  split
  · exact canon_store h
  · exact canon_report (canon_store h)
theorem canon_execStampWrite {id : Nat} (h : Canon s) : InNext Canon (execStampWrite id s) := by
  refine canon_onOp h fun a => ?_
  split
  · exact .some (canon_dropOp (canon_ownStamp h))
  · exact canon_accessOf h
  · exact canon_accessOf h
  · exact .none
theorem canon_acknowledged (h : Canon s) : Canon (acknowledged s a) := by
  unfold acknowledged
  split
  · next p hp => exact canon_ite (canon_failOp h) (posted_keeps hp _ _ h)
  · exact canon_dropOp h
theorem canon_execPeerAck {id : Nat} (h : Canon s) : InNext Canon (execPeerAck id s) := by
  refine canon_onOp h fun a => ?_
  split
  · exact .none
  · exact .ite .none (.some (canon_heard (canon_acknowledged h)))
theorem canon_sideWriteBy {chk : Bool} {va : Nat} {bytes : List Byte} (h : Canon s) : Canon (sideWriteBy chk s a va bytes) := by
  unfold sideWriteBy
  split
  · exact h
  · exact canon_report (canon_noteMiss h)
  · exact canon_report h
  split
  · exact canon_report h
  next t ht =>
    have h' := canon_endpoint h t ht
    split
    · exact canon_report (canon_exchange h')
    · exact canon_exchange (canon_writeAt (canon_counted h'))
theorem canon_sideWrite {va : Nat} {bytes : List Byte} (h : Canon s) : Canon (sideWrite s a va bytes) := canon_sideWriteBy h
theorem canon_ownSideWrite {va : Nat} {bytes : List Byte} (h : Canon s) : Canon (ownSideWrite s a va bytes) := by
  unfold ownSideWrite
  dsimp only
  split
  · exact canon_store h
  · exact canon_report (canon_store h)
theorem canon_execMonarmReadReturn {id : Nat} (h : Canon s) : InNext Canon (execMonarmReadReturn id s) := by
  refine canon_onOp h fun a => ?_
  split
  next mon va _ =>
    refine .ite (.some (canon_dropOp h)) ?_
    split
    · exact .none
    · exact .some (canon_failOp (canon_noteMiss h))
    · exact .some (canon_failOp h)
    split
    · exact .some (canon_failOp h)
    next t ht =>
      have h' := canon_endpoint h t ht
      exact .ite (.some (canon_consumeFar (canon_exchange (canon_counted h'))))
        (.some (canon_dropOp (canon_modCtx (canon_exchange (canon_counted h')))))
  · exact .none

/-! Barrier arrivals. -/

theorem canon_moveSignal {peer lgroup bar phase : Nat} (h : Canon s) : InSome Canon (moveSignal s a peer lgroup bar phase) := by
  unfold moveSignal
  split
  · split
    · exact .some (canon_setOp h)
    · exact .ite (.some (canon_dropOp h)) .none
  refine .ite .none ?_
  split
  · exact .some (canon_failOp h)
  · exact .ite (.some (canon_failOp h)) (.ite .none (.some (canon_sendOut h)))
theorem canon_deliver {c bar phase : Nat} {r : Rel} (h : Canon s) : Canon (deliver s c bar phase r) := h.same
theorem canon_execBarrierArrival {id : Nat} (h : Canon s) : InNext Canon (execBarrierArrival id s) := by
  refine canon_onOp h fun a => ?_
  split
  · exact .ite .none (.ite (.some (canon_dropOp (canon_deliver h))) (.some (canon_setOp (canon_deliver h))))
  · exact canon_moveSignal h
  · exact .none

/-! Copies. -/

theorem canon_readChunk {va n : Nat} {first : Bool} (h : Canon s) : InOk (fun r => Canon r.1) (readChunk s a va n first) := by
  unfold readChunk
  split
  · dsimp only
    split
    · exact .error
    · exact .ok h
  split
  · exact .error
  · exact .error
  · exact .error
  split
  · exact .error
  next t ht =>
    have h' := canon_endpoint h t ht
    exact .ite .error (.ok (canon_ite (canon_exchange (canon_counted h')) h'))
theorem canon_elemBytes {e : Elem} (h : Canon s) : InOk (fun r => Canon r.1) (elemBytes s a e) := by
  unfold elemBytes
  split
  · exact .ok h
  · exact canon_readChunk h
theorem canon_readGroup {l : List Elem} (h : Canon s) : InOk (fun r => Canon r.1) (readGroup a s l) := by
  induction l generalizing s with
  | nil => exact .ok h
  | cons e l ih =>
    unfold readGroup
    split
    · exact .error
    next t b ht =>
      have h' : Canon t := canon_elemBytes h _ ht
      split
      · exact .error
      · next u l' hu => exact .ok (ih h' (u, l') hu)
theorem canon_writeGroup {lead : Bool} {bytes : List (Nat × Byte)} (h : Canon s) : InOk Canon (writeGroup s a lead bytes) := by
  unfold writeGroup
  dsimp only
  split
  · exact .error
  · exact .error
  · exact .error
  split
  · exact .error
  next t ht =>
    have h' := canon_endpoint h t ht
    split
    · exact .error
    · exact .ok (canon_exchange (canon_writeAt (canon_ite (canon_counted h') h')))
theorem canon_writeChunks {l : List (Bool × List (Nat × Byte))} (h : Canon s) : InOk Canon (writeChunks a s l) := by
  induction l generalizing s with
  | nil => exact .ok h
  | cons g l ih =>
    unfold writeChunks
    split
    · exact .error
    · next t ht => exact ih (canon_writeGroup h t ht)
theorem canon_missCopy {slow : Slow} {m : Miss} {code : Nat} {set : Slow → OpK} (h : Canon s) :
    InSome Canon (missCopy s a slow m code set) := by
  unfold missCopy
  split
  · exact .none
  · exact .some (canon_failOp h)
  · exact .some (canon_consumeFar (canon_exchange h))
  next f va write =>
    have h' := canon_turnedAway (a := a) (k := if write then .write else .read) (va := va) h
    dsimp only
    split
    · exact .some (canon_failOp (canon_noteFail h'))
    · exact .some (canon_failOp h')
    · exact .ite (.some (canon_failOp h')) (.some (canon_setOp h'))
theorem canon_moveEach {groups : List (List Elem)} (h : Canon s) : ∀ t ∈ (moveEach a s groups).1, Canon t := by
  induction groups generalizing s with
  | nil => exact List.forall_mem_nil _
  | cons g rest ih =>
    unfold moveEach
    split
    · exact List.forall_mem_nil _
    next t l ht =>
      split
      · exact List.forall_mem_nil _
      next u hu =>
        have hu' : Canon u := canon_writeChunks (canon_readGroup h _ ht) u hu
        intro v hv
        rcases List.mem_cons.mp hv with rfl | hv
        · exact hu'
        · exact ih hu' v hv
theorem canon_moveCross {elems : List Elem} {cw : CWord} {slow : Slow} (h : Canon s) :
    InSome Canon (moveCross s a elems cw slow) := by
  have hm := canon_moveEach (a := a) (groups := byElement elems) h
  unfold moveCross
  dsimp only
  split
  · next l hl =>
    rw [hl] at hm
    refine .some (canon_setOp ?_)
    cases hg : l.getLast? with
    | none => exact h
    | some t => exact hm t (List.mem_of_getLast? hg)
  · exact .none
  · next l m _ hl =>
    rw [hl] at hm
    refine canon_missCopy (canon_setOp (canon_ite h ?_))
    rw [List.getD_eq_getElem?_getD]
    refine InSome.getD (fun t ht => hm t (List.mem_of_getElem? ht)) h
theorem canon_moveCopy {elems : List Elem} {sched : Bool} {cw : CWord} {slow : Slow} (h : Canon s) :
    InSome Canon (moveCopy s a elems sched cw slow) := by
  unfold moveCopy
  refine .ite (canon_moveCross h) ?_
  split
  · exact canon_missCopy h
  dsimp only
  refine .ite .none ?_
  split
  · exact canon_missCopy h
  next t l ht =>
    have h' : Canon t := canon_readGroup h _ ht
    refine .ite (.some (canon_setOp (canon_xferData h'))) ?_
    split
    · exact canon_missCopy h
    · next u hu => exact .some (canon_setOp (canon_writeChunks h' u hu))
theorem canon_readTile {va : Nat} (n : Nat) (h : Canon s) : InOk (fun r => Canon r.1) (readTile a s va n) := by
  induction n generalizing s va with
  | zero => exact .ok h
  | succ n ih =>
    unfold readTile
    split
    · exact .error
    next t b ht =>
      split
      · exact .error
      · next u l hu => exact .ok (ih (canon_readChunk h (t, b) ht) (u, l) hu)
theorem canon_execTransferDataArrival {id : Nat} (h : Canon s) : InNext Canon (execTransferDataArrival id s) := by
  refine canon_onOp h fun a => ?_
  split
  · exact .ite .none (canon_moveCopy h)
  · refine .ite .none ?_
    split
    · exact canon_missCopy h
    · next t b ht => exact .some (canon_setOp (canon_readTile _ h _ ht))
  · exact .none
theorem canon_execCopyComplete {id : Nat} (h : Canon s) : InNext Canon (execCopyComplete id s) := by
  refine canon_onOp h fun a => ?_
  split
  · exact .ite (.some (canon_finish h)) .none
  · exact .none
theorem canon_mcastStore {core : Nat} {bytes : List (Nat × Byte)} (h : Canon s) : Canon (mcastStore s a core bytes).1 := by
  unfold mcastStore
  split
  · exact canon_store h
  dsimp only
  split
  · exact canon_ite h h.same
  · exact canon_ownWrite h
theorem canon_execMcastDelivery {id core : Nat} (h : Canon s) : InNext Canon (execMcastDelivery id core s) := by
  refine canon_onOp h fun a => ?_
  split
  next src dst n left b cw slow _ =>
    refine .ite .none ?_
    extract_lets w t rest id' done a'
    have ht : Canon t := canon_mcastStore h
    have hd : Canon done.1 := by
      unfold done
      split
      · exact canon_post ht
      · exact ht
    refine .ite (.some ht) (.ite (.some (canon_setOp hd)) ?_)
    split
    · exact .some (canon_setOp hd)
    · exact .some (canon_dropOp hd)
  · exact .none

/-! The slow path of Kloty. -/

theorem canon_pageRequest {slow : Slow} {set : Slow → OpK} (h : Canon s) : InSome Canon (pageRequest s a slow set) :=
  .ite .none (.ite (.some (canon_setOp (canon_ringDrop h)))
    (.ite .none (.map (canon_ringPostOrHold (canon_ringFlush h)) fun _ ht => canon_setOp ht)))
theorem canon_execSlowPathHandoff {id : Nat} (h : Canon s) : InNext Canon (execSlowPathHandoff id s) := by
  refine canon_onOp h fun a => ?_
  split
  · exact canon_pageRequest h
  · exact canon_pageRequest h
  · exact canon_pageRequest h
  · exact .none
theorem canon_readReply {slow : Slow} {code : Nat} {set : Slow → OpK} (h : Canon s) : InSome Canon (readReply s a slow code set) := by
  have hr := canon_readVa (who := a) (c := (s.part a.part).cfg.control) (lvl := 1) (va := slow.reply) (n := 8) h
  unfold readReply
  dsimp only
  refine .ite .none ?_
  split
  · exact .some (canon_failOp h)
  split
  · next t ht => rw [ht] at hr; exact .some (canon_setOp hr)
  · next t ht => rw [ht] at hr; exact .some (canon_failOp hr)
  · exact .none
  · next t ht => rw [ht] at hr; exact .ite .none (.some hr)
theorem canon_execPageRequestReply {id : Nat} (h : Canon s) : InNext Canon (execPageRequestReply id s) := by
  refine canon_onOp h fun a => ?_
  split
  · exact canon_readReply h
  · exact canon_readReply h
  · exact canon_readReply h
  · exact .none

/-! Channels, atomics, shelf requests. -/

theorem canon_deliverBeat {bind : SendBind} {b : Beat} (h : Canon s) : InSome Canon (deliverBeat s a bind b) := by
  unfold deliverBeat
  split
  · exact .ite .none (.some (canon_returnCreditsOf (canon_dropOp h)))
  split
  · exact .none
  · exact .ite (.some (canon_setOp h)) (.some (canon_dropOp (canon_modCtx h)))
  · exact .some (canon_setOp h)
  · exact .some (canon_returnCreditsOf (canon_dropOp h))
theorem canon_execBeatArrival {id : Nat} (h : Canon s) : InNext Canon (execBeatArrival id s) := by
  refine canon_onOp h fun a => ?_
  split
  · refine .ite (canon_deliverBeat h) ?_
    split
    · exact .some (canon_failOp h)
    · exact .ite (.some (canon_failOp h)) (.ite .none (.some (canon_sendOut h)))
  · exact .none
theorem canon_execBeatReoffer {id : Nat} (h : Canon s) : InNext Canon (execBeatReoffer id s) := by
  refine canon_onOp h fun a => ?_
  split
  · exact .ite .none (canon_deliverBeat h)
  · exact .none
theorem canon_execCreditReturn {id : Nat} (h : Canon s) : InNext Canon (execCreditReturn id s) := by
  refine canon_onOp h fun a => ?_
  split
  · exact .ite (.ite (.some (canon_dropOp h)) (.ite .none (.some (canon_dropOp (canon_sendOn h)))))
      (.ite .none (.ite (.some (canon_dropOp (canon_modCtx h))) (.some (canon_dropOp h))))
  · exact .none
theorem canon_execAtomicPerform {id : Nat} (h : Canon s) : InNext Canon (execAtomicPerform id s) := by
  refine canon_onOp h fun a => ?_
  split
  · exact canon_accessOf h
  · exact .none
theorem canon_askSwitch {p peer : Nat} (h : Canon s) : Canon (askSwitch p s peer) := by
  unfold askSwitch
  split
  · exact canon_heard (canon_sendOn h)
  · exact h
theorem canon_shalloc {p size : Nat} {mir : Bool} (h : Canon s) : Canon (shalloc s p size mir).1 := by
  have hs := fun l => canon_foldl (f := askSwitch p) (fun _ _ => canon_askSwitch) l (s := { s with tick := s.tick + 2 }) h.same
  unfold shalloc
  extract_lets q sw need
  refine canon_ite_fst h (canon_ite_fst h (canon_ite_fst h (canon_ite_fst h ?_)))
  split
  · exact h
  · exact canon_ite_fst (hs _) (canon_ite_fst (hs _) (canon_modPart (hs _)))
theorem canon_shelfResult {ret : List Nat} {status addr : Nat} (h : Canon s) : Canon (shelfResult s a ret status addr) :=
  canon_dropOp (canon_xferData h)
theorem canon_execShallocReply {id : Nat} (h : Canon s) : InNext Canon (execShallocReply id s) := by
  refine canon_onOp h fun a => ?_
  split
  · exact .some (canon_shelfResult (canon_shalloc h))
  · exact .none
theorem canon_execShfreeReply {id : Nat} (h : Canon s) : InNext Canon (execShfreeReply id s) := by
  refine canon_onOp h fun a => ?_
  split
  · split
    · exact .some (canon_shelfResult h)
    · exact .some (canon_shelfResult (canon_modPart (canon_foldl (fun _ _ => canon_askSwitch) _ (canon_dropTlb h))))
  · exact .none

end

/-! #### Vector, matrix, modular and memory instructions (VecInt, VecFp, Matrix, LoadStore, Modular) -/

section
variable {s : State} {j : Iss} {e : Option Nat} {vd va vb mk ft : Nat} {u : Bool}

theorem keeps_opE {cls lat rtag : Nat} {rs : List (Nat × Nat)} {f : RMode → Nat → Nat → Nat → Nat × Nat} :
    (opE cls lat e vd mk rtag u rs f).Keeps := fun _ _ h => .bind (.any _) fun _ _ => canon_maskedOut h
theorem keeps_opI2 {f : Nat → Nat → Nat → Nat} : (opI2 f e vd va vb mk ft u).Keeps := keeps_opE
theorem keeps_opI1 {f : Nat → Nat → Nat} : (opI1 f e vd va mk ft u).Keeps := keeps_opE
theorem keeps_opF2 {f : Nat → RMode → Nat → Nat → Nat × Nat} : (opF2 f e vd va vb mk ft).Keeps := keeps_opE
theorem keeps_opF3 {f : Nat → RMode → Nat → Nat → Nat → Nat × Nat} {x : Nat} : (opF3 f x vd va vb mk ft).Keeps := keeps_opE
theorem keeps_opF1 {f : Nat → Nat → Nat} : (opF1 f e vd va mk ft).Keeps := keeps_opE
theorem keeps_opSpecial {lat : Nat} {f : RMode → Val → Nat × Nat} : (opSpecial lat f e vd va mk).Keeps := keeps_opE
theorem keeps_opLogic {f : Nat → Nat → Nat} : (opLogic f e vd va vb mk ft u).Keeps := fun _ _ h =>
  .ite (.ok h.same) (canon_maskedOut h)
theorem keeps_opVcmp {cond : Nat} : (opVcmp e vd va vb cond ft u).Keeps := fun _ _ h => .bind (.any _) fun _ _ => .ok h.same
theorem keeps_opVsel : (opVsel e vd va vb mk ft u).Keeps := fun _ _ h => .bind (.any _) fun _ _ => canon_wholeOut h
theorem keeps_opVmov : (opVmov e vd va mk ft u).Keeps := fun _ _ h =>
  .ite (.ite (.ok h.same) (canon_wholeOut h)) (.bind (.any _) fun _ _ => canon_maskedOut h)
theorem keeps_opVbcast : (opVbcast vd va mk ft u).Keeps := fun _ _ h => canon_maskedOut h
theorem keeps_opBcast {row : Bool} {idx : Nat} : (opBcast row e vd va idx ft).Keeps := fun _ _ h =>
  .bind (.any _) fun _ _ => .bind (.any _) fun _ _ => .ite .error (canon_wholeOut h)
theorem keeps_opVins {idx : Nat} : (opVins vd va idx ft u).Keeps := fun _ _ h => canon_emitV h
theorem keeps_opVext {idx : Nat} : (opVext e vd va idx ft u).Keeps := fun _ _ h => .bind (.any _) fun _ _ => .ok h.same
theorem keeps_opVtag {tt : Nat} : (opVtag e vd va tt).Keeps := fun _ _ h => .ite (.ok h.same) (canon_wholeOut h)
theorem keeps_opVxrd {md : Nat} : (opVxrd e vd va vb mk md u).Keeps := fun _ _ h =>
  .ite .error (.ite .error (.bind (.any _) fun _ _ => .bind (.any _) fun _ _ => .bind (canon_wholeOut h) fun _ ht => .ok (canon_emit ht)))
theorem keeps_opVrot {k : Nat} : (opVrot e vd va k ft u).Keeps := fun _ _ h =>
  .bind (.any _) fun _ _ => .bind (.any _) fun _ _ => canon_wholeOut h
theorem keeps_opVspush {sq : Nat} : (opVspush e sq va mk).Keeps := fun _ _ h =>
  .ite .error (.ite .error (.ite .error (.ok h.same)))
theorem canon_setStream {n : Nat} {q : Stream} (h : Canon s) : Canon (setStream j n q s) := h.same
theorem canon_runPop {sq md k : Nat} (h : Canon s) : InOk Canon (runPop j sq vd md k s) :=
  .bind (canon_wholeOut (canon_setStream h)) fun _ ht => .ok (canon_emit ht)
theorem keeps_opVsbal {sqa sqb : Nat} : (opVsbal sqa sqb).Keeps := fun _ _ h => .ite .error (.ok (canon_setStream (canon_setStream h)))

theorem keeps_opVfcmp {cond : Nat} : (opVfcmp e vd va vb cond ft).Keeps := fun _ _ h =>
  .bind (.any _) fun _ _ => .bind (canon_flagsOut h) fun _ ht => .ok (canon_emit ht)
theorem keeps_opVfcls {cls : Nat} : (opVfcls e vd va cls ft).Keeps := fun _ _ h => .bind (.any _) fun _ _ => .ok h.same
theorem keeps_opVcvt {tt part : Nat} {su : Bool} : (opVcvt e vd va tt ft part su u).Keeps := fun _ _ h =>
  .bind (.any _) fun _ _ => canon_partOut h
theorem keeps_opVcvts {tt : Nat} : (opVcvts e vd va vb tt ft).Keeps := fun _ _ h => .bind (.any _) fun _ _ => canon_partOut h
theorem keeps_opVquant {ct part : Nat} : (opVquant e vd va ct part ft).Keeps := fun _ _ h =>
  .bind (.any _) fun _ _ => .bind (.any _) fun _ _ => canon_partOut h
theorem keeps_opVquantBlk {md : Nat} : (opVquantBlk e vd va md ft).Keeps := fun _ _ h =>
  .bind (.any _) fun _ _ => .bind (canon_flagsOut h) fun _ ht => .ok (canon_emit (canon_emit (canon_emit ht)))
theorem keeps_opVdeq {tt ct part : Nat} : (opVdeq e vd va tt ct part).Keeps := fun _ _ h =>
  .bind (.any _) fun _ _ => .bind (.any _) fun _ _ => canon_wholeOut h
theorem keeps_opVdeqBlk {tt part : Nat} : (opVdeqBlk e vd va tt part).Keeps := fun _ _ h =>
  .bind (.any _) fun _ _ => canon_wholeOut h
theorem keeps_opRed {kind : Nat} {dir : Bool} : (opRed kind e vd va mk ft u dir).Keeps := fun _ _ h =>
  .bind (.any _) fun _ _ => .bind (.any _) fun _ _ => canon_wholeOut h

theorem canon_emits {α : Type} {lat : Nat} {r : α → Res} {l : List α} (h : Canon s) :
    Canon (l.foldl (fun s a => j.emit lat (r a) s) s) := canon_foldl (fun _ _ => canon_emit) l h
theorem canon_claimOne {kind n : Nat} (h : Canon s) : Canon (claimOne j kind s n) := canon_ite h.same h.same
theorem keeps_opMclaim {kind first cnt : Nat} : (opMclaim kind first cnt).Keeps := fun _ _ h =>
  .ite .error (.ok (canon_foldl (fun _ _ => canon_claimOne) _ h))
theorem keeps_opMrel {kind first cnt : Nat} : (opMrel kind first cnt).Keeps := fun _ _ h => .ite (.ok h.same) (.ok h.same)
theorem keeps_opMfill {os grp an off : Nat} : (opMfill e os grp an off).Keeps := fun _ _ h =>
  .bind (.any _) fun _ _ => .bind (.any _) fun _ _ => .bind (canon_reserveOf h) fun _ ht => .ok (canon_emits ht)
theorem keeps_opMpush {lt row : Nat} {part blk : Bool} : (opMpush e lt row va part blk).Keeps := fun _ _ h =>
  .bind (.any _) fun _ _ => .ite (.bind (.any _) fun _ _ => .ok (canon_emit (canon_emit h))) (.bind (.any _) fun _ _ => .ok h.same)
theorem keeps_opMshift {os row : Nat} {part blk : Bool} : (opMshift e os row va part blk).Keeps := fun _ _ h =>
  .bind (.any _) fun _ _ => .ite
    (.bind (.any _) fun _ _ => .bind (.any _) fun _ _ => .bind (canon_reserveOf h) fun _ ht => .ok (canon_emit (canon_emit ht)))
    (.bind (.any _) fun _ _ => .bind (canon_reserveOf h) fun _ ht => .ok (canon_emit ht))
theorem canon_latchPlane {lt plane os : Nat} (h : Canon s) : Canon (latchPlane j lt plane os s) :=
  canon_foldl (fun _ _ => canon_emit) _ h
theorem keeps_opMlatch {lt os : Nat} {blk : Bool} : (opMlatch lt os blk).Keeps := fun _ _ h =>
  .bind (.any _) fun _ _ => .bind (.any _) fun _ _ => .ite
    (.bind (.any _) fun _ _ => .ok (canon_latchPlane (canon_latchPlane h))) (.ok (canon_latchPlane h))
theorem keeps_opMacc {acc row os lt : Nat} {za : Bool} : (opMacc e acc row os lt za).Keeps := fun _ _ h =>
  .bind (.any _) fun _ _ => .bind (.any _) fun _ _ => .bind (.any _) fun _ _ => .ite .error (.ite .error
    (.bind (.any _) fun _ _ => .bind (.any _) fun _ _ => .bind (canon_reserveOf h) fun _ ht =>
      .ok (canon_emit (canon_ite ht (canon_emit ht)))))
theorem keeps_opMzero {acc : Nat} : (opMzero acc).Keeps := fun _ _ h =>
  .bind (.any _) fun _ _ => .bind (canon_reserveOf h) fun _ ht => .ok (canon_emit ht)
theorem keeps_opMdrain {acc row tt part : Nat} {clr : Bool} : (opMdrain acc row vd tt part clr).Keeps := fun _ _ h =>
  .bind (.any _) fun _ _ => .bind (canon_emitV (canon_ite h (canon_emit h))) fun _ ht => .ite
    (.bind (canon_reserveOf ht) fun _ hu => .ok (canon_emit hu)) (.ok ht)

theorem keeps_opLoad {a : Iss → Nat} {align n : Nat} {res : Nat → List Res} : (opLoad a align n res).Keeps := by
  intro j s h
  unfold opLoad
  dsimp only
  split
  · exact .error
  · exact .ok (canon_emits h)
theorem keeps_opStore {a : Iss → Nat} {align : Nat} {check : Iss → Except Stop Unit} {bytes : Iss → List (Nat × Byte)} :
    (opStore a align check bytes).Keeps := by
  intro j s h
  refine .ite .error ?_
  split
  · exact .error
  · exact canon_storeAll h
theorem keeps_opVgth {vi an tag : Nat} : (opVgth e vd vi an mk tag).Keeps := by
  intro j s h
  unfold opVgth
  dsimp only
  split
  · exact .error
  split
  · exact .error
  · exact .ok h.same
theorem keeps_opVsct {vi an tag : Nat} : (opVsct e va vi an mk tag).Keeps := by
  intro j s h
  refine .bind (.any _) fun _ _ => .bind (.any _) fun _ _ => ?_
  split
  · exact .error
  · exact canon_storeAll h

theorem keeps_opQload {k : Bool} {q : Nat} : (opQload k e q va).Keeps := fun _ _ h => .bind (.any _) fun _ _ => .ok h.same
theorem keeps_opRes {lat q : Nat} {f : Nat → Nat → Nat → Nat → Nat} {mac : Bool} {rs : List Nat} :
    (opRes lat f mac e vd rs mk q).Keeps := by
  intro j s h
  refine .bind (.any _) fun _ _ => ?_
  extract_lets el rest tail
  have hrest : ∀ u, InOk Canon (rest u) := fun _ => .bind (.any _) fun _ _ => .ok h.same
  have htail : ∀ u, InOk Canon (tail u) := fun _ => .ite (.bind (.any _) fun u _ => hrest u) (.bind (.any _) fun u _ => hrest u)
  exact .ite (.bind (.any _) fun u _ => htail u) (.bind (.any _) fun u _ => htail u)
theorem keeps_opQcvtQ64I64 {q : Nat} : (opQcvtQ64I64 e vd va mk q).Keeps := fun _ _ h =>
  .bind (.any _) fun _ _ => .bind (.any _) fun _ _ => .ok h.same
theorem keeps_opQcvtI64Q64 {q : Nat} : (opQcvtI64Q64 e vd va mk q).Keeps := fun _ _ h =>
  .ite (.bind (.any _) fun _ _ => .bind (.any _) fun _ _ => .ok h.same)
    (.bind (.any _) fun _ _ => .bind (.any _) fun _ _ => .ok h.same)
theorem keeps_opFly {f : Nat → Nat → Nat → Nat → Nat × Nat} {vw q : Nat} : (opFly f e vd va vw mk q).Keeps := fun _ _ h =>
  .bind (.any _) fun _ _ => .bind (.any _) fun _ _ => .bind (.any _) fun _ _ => .bind (.any _) fun _ _ =>
    .ok (canon_emit (canon_emit h))
theorem canon_emitBits {lat : Nat} {v : VReg} {chk : Nat → Bool} (h : Canon s) : InOk Canon (emitBits j lat vd v chk s) :=
  .ite (.ok h.same) (canon_emitV h)
theorem keeps_opBstage {swap : Iss → Nat → Bool} {stg : Nat} : (opBstage swap e vd va stg u).Keeps := fun _ _ h => canon_emitBits h
theorem keeps_opVxperm {vi : Nat} : (opVxperm e vd va vi mk u).Keeps := fun _ _ h => .bind (.any _) fun _ _ => canon_emitBits h

end

/-- The effect of every slot instruction keeps the form. -/
theorem opOf_keeps {i : Instr} {o : Op} (ho : opOf i = some o) : o.Keeps := by
  cases i <;> cases ho
  case nop | trap | brk => exact (fun _ _ h => .ok h)
  case br | brp | brr | call | ret | loopEnd | bwait | gear | gearReg | lqstat | idle | sel | ldi | ldiExt | ldiHi | aadd | aldi |
      astr | aget | vjoin | vshape | mand | mor | mxor | mnot | mpopc | mfirst | mset | msetReg | mfmt | seqlv =>
    exact (fun _ _ h => .ok h.same)
  case add | sub | mul | and | or | xor | andn | shl | shr | sra | rot | mulh | div | rem | min | max => exact keeps_opBin
  case clz | popc => exact keeps_opG
  case pand | por | pxor | pnot => exact keeps_opP
  case cmp => exact keeps_opCmp
  case srd => exact keeps_opSrd
  case swr => exact keeps_opSwr
  case amov => exact keeps_opAmov
  case aclr => exact keeps_opAclr
  case loop => exact keeps_opLoop
  case endk => exact keeps_opEndk
  case barv => exact keeps_opBarv
  case binit => exact keeps_opBinit
  case monwait => exact keeps_opMonwait
  case dlchk => exact keeps_opDlchk
  case launch => exact keeps_opLaunch
  case eret => exact keeps_opEret
  case srdp => exact keeps_opSrdp
  case swrp => exact keeps_opSwrp
  case tlbinvPage | tlbinvAll | tlbinvWb => exact (fun _ _ h => canon_runTlbinv h)
  case ctxsvCtx | ctxsvCore => exact (fun _ _ h => canon_runSave h)
  case ctxldCtx | ctxldCore => exact (fun _ _ h => canon_runLoad h)
  case trcctlOff | trcctlRec | trcctlBind => exact keeps_opTrcctl
  case ld | vld | vldw | pld => exact keeps_opLoad
  case st | vst | vstw | pst => exact keeps_opStore
  case vgth => exact keeps_opVgth
  case vsct => exact keeps_opVsct
  case vadd | vsub | vmul | vmulh | vsadd | vssub | vmin | vmax | vshl | vshr | vsra => exact keeps_opI2
  case vabs | vneg | vclz | vpopc => exact keeps_opI1
  case vfadd | vfsub | vfmul | vfmin | vfmax => exact keeps_opF2
  case vfma | vfms | vfnma => exact keeps_opF3
  case vfabs | vfneg => exact keeps_opF1
  case vfexp | vfscl => exact keeps_opE
  case fexp2 | flog2 | frcp | frsq => exact keeps_opSpecial
  case vand | vor | vxor | vandn => exact keeps_opLogic
  case vcmp => exact keeps_opVcmp
  case vsel => exact keeps_opVsel
  case vmov => exact keeps_opVmov
  case vbcast => exact keeps_opVbcast
  case vbcastRow | vbcastCol => exact keeps_opBcast
  case vins => exact keeps_opVins
  case vext => exact keeps_opVext
  case vtag => exact keeps_opVtag
  case vxrd => exact keeps_opVxrd
  case vrot => exact keeps_opVrot
  case vspush => exact keeps_opVspush
  case vspop | vspopEnd => exact (fun _ _ h => canon_runPop h)
  case vsbal => exact keeps_opVsbal
  case vfcmp => exact keeps_opVfcmp
  case vfcls => exact keeps_opVfcls
  case vcvt => exact keeps_opVcvt
  case vcvts => exact keeps_opVcvts
  case vquant => exact keeps_opVquant
  case vquantBlk => exact keeps_opVquantBlk
  case vdeq => exact keeps_opVdeq
  case vdeqBlk => exact keeps_opVdeqBlk
  case vrsum | vrmax | vrmin => exact keeps_opRed
  case mclaim => exact keeps_opMclaim
  case mrel => exact keeps_opMrel
  case mfill => exact keeps_opMfill
  case mlatch => exact keeps_opMlatch
  case mpush => exact keeps_opMpush
  case mshift => exact keeps_opMshift
  case macc => exact keeps_opMacc
  case mdrain => exact keeps_opMdrain
  case mzero => exact keeps_opMzero
  case qldm | qldk => exact keeps_opQload
  case qadd | qsub | qmul | qmac | qred => exact keeps_opRes
  case qbfly | qibfly => exact keeps_opFly
  case qcvtQ64I64 => exact keeps_opQcvtQ64I64
  case qcvtI64Q64 => exact keeps_opQcvtI64Q64
  case bperm | bpermi => exact keeps_opBstage
  case vxperm => exact keeps_opVxperm
  case seqgo => exact keeps_opSeqgo
  case tmov => exact keeps_opTmov
  case mcast => exact keeps_opMcast
  case send => exact keeps_opSend
  case sendMem => exact keeps_opSendMem
  case recv => exact keeps_opRecv
  case recvMem => exact keeps_opRecvMem
  case nmcmd => exact keeps_opNmcmd
  case nmfence => exact keeps_opNmfence
  case fence => exact keeps_opFence
  case atom => exact keeps_opAtom
  case atomr => exact keeps_opAtomr
  case shalloc | shfree => exact (fun _ _ h => canon_shelfRequest h)
  case stamp => exact keeps_opStamp
  case monarm => exact keeps_opMonarm
  case bndset => exact keeps_opBndset
  case ctset => exact keeps_opCtset
  case coll => exact keeps_opColl
  case pref => exact keeps_opPref

/-- A slot instruction's step keeps the form. -/
theorem canon_slot {i : Instr} {o : Op} {s : State} (ho : opOf i = some o) (h : Canon s) : InNext Canon (issueOne i o s) :=
  canon_issueOne (opOf_keeps ho) h

section
variable {s : State} {a : Async} {c x : Nat}

/-! #### Near-memory commands (NearMem) -/

theorem canon_nmCount {l : List Stretch} {seen : List Nat} (h : Canon s) : Canon (nmCount a s seen l) := by
  induction l generalizing s seen with
  | nil => exact h
  | cons t l ih =>
    unfold nmCount
    split
    · exact canon_ite (ih h) (ih (canon_countVa h))
    · exact ih h
theorem canon_nmRefuse {e : NmFail} (h : Canon s) : Canon (nmRefuse s a e) := by
  unfold nmRefuse
  split
  · dsimp only
    split
    · exact canon_report (canon_noteFail h)
    · exact canon_noteFail h
  · exact h
theorem canon_nmTake {d : NmDesc} {cw : CWord} {stack : Option Nat} {r : Except NmFail (List Stretch × List Stretch)} (h : Canon s) :
    Canon (nmTake s a d cw stack r) := by
  unfold nmTake
  split
  · exact canon_setOp h
  · exact canon_setOp (canon_nmRefuse h)
theorem canon_acceptAt {d : NmDesc} {cw : CWord} {n : Nat} (h : Canon s) : InSome Canon (acceptAt s a d cw n) := by
  unfold acceptAt
  dsimp only
  exact .ite .none (.ite (.ite .none (.some h.same)) (.some (canon_nmTake h.same)))
theorem canon_nmTaken (h : Canon s) : Canon (nmTaken s a) := canon_ite (canon_modCtx h) (canon_ite h.same h)
theorem canon_execNmcmdAccept {id : Nat} (h : Canon s) : InNext Canon (execNmcmdAccept id s) := by
  refine canon_onOp h fun a => ?_
  split
  next d cw stack _ =>
    refine .map (P := Canon) ?_ fun t ht => canon_ite (canon_nmTaken ht) ht
    cases stack with
    | some n => exact canon_acceptAt h
    | none => exact .ite .none (.some (canon_nmTake h))
  · exact .none
theorem canon_nmRaces {chk : Nat → Bool} {write : Bool} {l : List (Nat × Nat)} (h : Canon s) : Canon (nmRaces a chk write s l).1 := by
  induction l generalizing s with
  | nil => exact h
  | cons e l ih =>
    unfold nmRaces
    refine canon_ite_fst (ih h) ?_
    split
    · next t ht => exact ih (canon_raceAccess h t ht)
    · exact ih h
theorem canon_nmReport {d : NmDesc} {status : Nat} (h : Canon s) : Canon (nmReport s a d status) :=
  canon_ite h (canon_ite (canon_ownSideWrite h) (canon_sideWrite h))
theorem canon_nmFinish {d : NmDesc} {cw : CWord} {status : Nat} (h : Canon s) : Canon (nmFinish s a d cw status) :=
  have hf : Canon (finish (nmReport s a d status) a cw) := canon_finish (canon_nmReport h)
  canon_ite hf (canon_clearBusy hf)
theorem canon_nmComplete {d : NmDesc} {cw : CWord} {w : NmPlace} (h : Canon s) : Canon (nmComplete s a d cw w) := by
  unfold nmComplete
  refine canon_ite (canon_nmFinish h) ?_
  extract_lets s1 rd rs s2 out s3 s4
  have hr : Canon rs.1 := canon_nmRaces (canon_nmRaces (canon_nmCount h))
  have h2 : Canon s2 := by
    unfold s2
    split
    · exact canon_report hr
    · exact canon_report hr
    · exact hr
  exact canon_nmFinish (canon_store (bytes := out.bytes) (rel := none) h2).same
theorem canon_execNmcmdComplete {id : Nat} (h : Canon s) : InNext Canon (execNmcmdComplete id s) := by
  refine canon_onOp h fun a => ?_
  split
  · exact .ite .none (.some (canon_nmComplete h))
  · exact .none
theorem canon_execNmfenceAnswer {id stack : Nat} (h : Canon s) : InNext Canon (execNmfenceAnswer id stack s) := by
  refine canon_onOp h fun a => ?_
  split
  · exact .ite .none (.ite (.some h.same) (.some (canon_ite (canon_modCtx h.same) h.same)))
  · exact .none

/-! #### Contexts and their causes (Contexts) -/

theorem canon_thaw {idle : Bool} (h : Canon s) : InSome Canon (thaw s c x idle) := by
  unfold thaw
  dsimp only
  split
  · exact .ite (.some (canon_makeReady h)) .none
  · exact .none
theorem canon_execContextReady (h : Canon s) : InNext Canon (execContextReady c x s) := canon_event h (canon_thaw h)
theorem canon_execIdleWake (h : Canon s) : InNext Canon (execIdleWake c x s) := canon_event h (canon_thaw h)
theorem canon_postHeld (h : Canon s) : InSome Canon (postHeld s c x) := by
  unfold postHeld
  extract_lets p t
  have ht : Canon t := canon_ite (canon_recFlush h) h
  split
  · next u hu => exact .some (canon_postOwn ht u hu)
  · exact .ite (.some ht) .none
theorem canon_execHeldRecordPost (h : Canon s) : InNext Canon (execHeldRecordPost c x s) := canon_event h (canon_postHeld h)
theorem canon_takeDeferred (h : Canon s) : InSome Canon (takeDeferred s c x) := by
  unfold takeDeferred
  refine .ite .none ?_
  split
  · exact .none
  extract_lets t q
  have ht : Canon t := canon_modCtx h
  split
  · exact .ite (.some (canon_takeCause ht)) (.some (canon_rewindNow ht))
  · exact .some (canon_takeCause ht)
theorem canon_execDeferredCauseTaken (h : Canon s) : InNext Canon (execDeferredCauseTaken c x s) := canon_event h (canon_takeDeferred h)
theorem canon_execResume (h : Canon s) : InNext Canon (execResume c x s) := .next (canon_resumeCtx h)
theorem canon_execStep (h : Canon s) : InNext Canon (execStep c x s) := .next (canon_resumeCtx h)
theorem canon_execSuspend (h : Canon s) : InNext Canon (execSuspend c x s) := .next (canon_suspendCmd h)
theorem canon_execAbort (h : Canon s) : InNext Canon (execAbort c x s) := .next (canon_abortCmd h)
theorem canon_execTqctlWrite {p v : Nat} (h : Canon s) : InNext Canon (execTqctlWrite p v s) :=
  canon_event h (.ite .none (.some (canon_modPart h)))
theorem canon_execTqconsWrite {p v : Nat} (h : Canon s) : InNext Canon (execTqconsWrite p v s) :=
  canon_event h (.ite .none (.some (canon_modPart h)))
theorem canon_execEnergywWrite {v : Nat} (h : Canon s) : InNext Canon (execEnergywWrite c x v s) :=
  canon_event h (.ite (.some (canon_modCtx h)) .none)
theorem canon_execGearwWrite {v : Nat} (h : Canon s) : InNext Canon (execGearwWrite c x v s) :=
  canon_event h (.ite (.some (canon_modCtx h)) .none)
theorem canon_execFmtctlWrite {v : Nat} (h : Canon s) : InNext Canon (execFmtctlWrite c x v s) :=
  canon_event h (.ite .none (.some (canon_modRegs h)))
theorem canon_execRegisterWrite {sel idx v : Nat} (h : Canon s) : InNext Canon (execRegisterWrite c x sel idx v s) :=
  canon_event h (.ite (.ite .none (.some (canon_writeSpr h))) (.ite (.some h.same) (.ite (.some h.same) .none)))
theorem canon_consumeReg {kind addr : Nat} (h : Canon s) : Canon (consumeReg s c x kind addr) := by
  unfold consumeReg
  dsimp only
  split
  · exact canon_ite (canon_takeCause h) (canon_rewindNow h)
  · exact canon_takeCause h
theorem canon_execPoisonConsumption {kind addr : Nat} (h : Canon s) : InNext Canon (execPoisonConsumption c x kind addr s) :=
  canon_event h (.ite (.some (canon_modCtx h))
    (.ite (.ite (.some (canon_consumeReg h)) .none) (.ite .none (.some h.same))))
theorem canon_execPatrolScrub (h : Canon s) : InNext Canon (execPatrolScrub c s) := .next (canon_modCore h)

/-! #### Images (Images) -/

theorem canon_imgLines {k : AccKind} {xl : Xl} {va : Nat} (n : Nat) (h : Canon s) : InOk Canon (imgLines a k xl va n s) := by
  induction n with
  | zero => exact .ok h
  | succ n ih =>
    unfold imgLines
    split
    · exact .error
    next t ht =>
      split
      · exact .error
      · next u hu => exact .ok (canon_exchange (canon_counted (canon_endpoint (ih t ht) u hu)))
/-- The state of an image's accesses, reached or not. -/
def ImgReach.Holds (P : State → Prop) : ImgReach → Prop
  | .wait => True
  | .fail s _ => P s
  | .ok s => P s
theorem ImgReach.Holds.of_fail {P : State → Prop} {r : ImgReach} {q : Cause} (h : r.Holds P) (hr : r = .fail s q) : P s := by
  subst hr
  exact h
theorem ImgReach.Holds.of_ok {P : State → Prop} {r : ImgReach} (h : r.Holds P) (hr : r = .ok s) : P s := by
  subst hr
  exact h
theorem canon_imgReach {k : AccKind} {l : List (Nat × Nat)} (h : Canon s) : (imgReach a k l s).Holds Canon := by
  induction l generalizing s with
  | nil => exact h
  | cons e l ih =>
    unfold imgReach
    split
    · trivial
    · exact canon_noteMiss h
    · exact h
    split
    · exact h
    · next t ht => exact ih (canon_imgLines _ h t ht)
theorem canon_imgWrite {n va : Nat} {bs : List Byte} (h : Canon s) : Canon (imgWrite a s n va bs) := by
  induction n generalizing s va bs with
  | zero => exact h
  | succ n ih =>
    unfold imgWrite
    split
    · exact ih (canon_writeAt h)
    · exact h
theorem canon_vacate (h : Canon s) : Canon (vacate s c x) := by
  unfold vacate
  extract_lets k s1 blank s2 s3
  exact (canon_forget (c := c) (x := x) (s := s2) (canon_modCtx (canon_modCore h))).same
theorem canon_clearBusyBits {xs : List Nat} (h : Canon s) : Canon (clearBusyBits s c xs) := canon_foldl (fun _ _ => canon_setBusy) _ h
theorem canon_subHeaders {tc va : Nat} {was : List Nat} {ks : List Ctx} {l : List Nat} (h : Canon s) :
    Canon (subHeaders a tc va was ks s l) := by
  induction l generalizing s with
  | nil => exact h
  | cons y l ih => exact ih (canon_imgWrite h)
theorem canon_chargeImage {len : Nat} (h : Canon s) : Canon (chargeImage s a len) := canon_ite (canon_charge h) h
theorem canon_saveDone {core : Bool} {tc tx va : Nat} {was : List Nat} {cw : CWord} (h : Canon s) :
    Canon (saveDone s a core tc tx va was cw) := by
  unfold saveDone
  extract_lets xs ks k len one err im body written s1 s2 stat head s3 s4 s5 s6
  have hw : Canon written := canon_imgWrite h
  have h1 : Canon s1 := canon_ite h hw.same
  have h3 : Canon s3 := canon_imgWrite (canon_ite (canon_subHeaders h1) h1)
  have h5 : Canon s5 := canon_chargeImage (canon_ite h3 h3.same)
  exact canon_finish (canon_pickNext (canon_foldl (fun _ _ ht => canon_ite ht (canon_vacate ht)) _ (canon_clearBusyBits h5)))
theorem canon_imgFail {inside : Bool} {tc : Nat} {xs : List Nat} {q : Cause} (h : Canon s) : Canon (imgFail s a inside tc xs q) :=
  canon_failOp (canon_ite (canon_clearBusyBits h) h)
theorem canon_execSaveComplete {id : Nat} (h : Canon s) : InNext Canon (execSaveComplete id s) := by
  refine canon_onOp h fun a => ?_
  split
  next core tc tx va was cw _ =>
    refine .ite .none ?_
    have hr := fun l => canon_imgReach (a := a) (k := .write) (l := l) h
    split
    · exact .none
    · next t q ht => exact .some (canon_imgFail ((hr _).of_fail ht))
    · next t ht =>
      have h' : Canon t := (hr _).of_ok ht
      exact .ite (.some (canon_saveDone h')) (.some (canon_finish (canon_chargeImage (canon_imgWrite h'))))
  · exact .none
theorem canon_execSaveAbandon {id : Nat} (h : Canon s) : InNext Canon (execSaveAbandon id s) := by
  refine canon_onOp h fun a => ?_
  split
  next core tc tx va was cw _ =>
    refine .ite .none ?_
    have hr := fun l => canon_imgReach (a := a) (k := .write) (l := l) h
    split
    · exact .none
    · next t q ht => exact .some (canon_imgFail ((hr _).of_fail ht))
    · next t ht =>
      have h' : Canon t := (hr _).of_ok ht
      exact .some (canon_finish (canon_chargeImage (canon_clearBusyBits (canon_imgWrite h'))))
  · exact .none
theorem canon_restoreCtx {va : Nat} {im : Image} (h : Canon s) : Canon (restoreCtx s a c x va im) := by
  unfold restoreCtx
  refine canon_ite h ?_
  extract_lets now k' s1 back s2 s3
  have h3 : Canon s3 := h.same
  split
  · exact h3
  · exact canon_modCtx h3
  · exact canon_makeReady h3
/-- The storage of a core is put back into what is left of memory. -/
theorem canon_restoreStorage {im : Image} (h : Canon s) : Canon (restoreStorage s c im) :=
  h.withMem (putBytes_wf _ _ (KV.wf_filter 0 s.mem _ h.1))
theorem canon_loadDone {core : Bool} {tc tx va : Nat} {im : Image} (h : Canon s) : Canon (loadDone s a core tc tx va im) :=
  canon_foldl (fun _ _ => canon_restoreCtx) _ (canon_ite (canon_restoreStorage h) h)
theorem canon_execLoadComplete {id : Nat} (h : Canon s) : InNext Canon (execLoadComplete id s) := by
  refine canon_onOp h fun a => ?_
  split
  next core tc tx va cw _ =>
    have hr := canon_imgReach (a := a) (k := .read) (l := [(va, 64)]) h
    refine .ite .none ?_
    split
    · exact .none
    · next t q ht => exact .some (canon_imgFail (hr.of_fail ht))
    next s1 ht =>
      have h1 : Canon s1 := hr.of_ok ht
      split
      · exact .none
      · exact .some (canon_imgFail (canon_noteMiss h1))
      · exact .some (canon_imgFail h1)
      have hb := fun l => canon_imgReach (a := a) (k := .read) (l := l) h1
      split
      · exact .none
      · next t q ht => exact .some (canon_imgFail ((hb _).of_fail ht))
      next s2 ht =>
        have h2 : Canon s2 := (hb _).of_ok ht
        extract_lets r s3 len s4
        have h3 : Canon s3 := canon_ite (canon_clearBusyBits h2) h2
        have h4 : Canon s4 := by
          unfold s4
          split
          · exact canon_loadDone h3
          · exact h3
        exact .some (canon_finish (canon_sideWrite (canon_chargeImage h4)))
  · exact .none

end

section
variable {s : State} {a : Async} {p : Nat}

/-! #### Launches (Launch) -/

theorem canon_tellLost {f : XFail} {va : Nat} (h : Canon s) : Canon (tellLost s a f va) := by
  unfold tellLost
  split
  · exact canon_report h
  · exact h
theorem canon_spanCuts {k : AccKind} {l : List (Nat × Nat)} (h : Canon s) : InSome (fun r => Canon r.1) (spanCuts a k l s) := by
  induction l generalizing s with
  | nil => exact .some h
  | cons e l ih =>
    unfold spanCuts
    split
    · exact .none
    · exact .some (canon_tellLost (canon_noteMiss h))
    · exact .some (canon_report h)
    next x _ =>
      have hx : Canon ((counted s a e.1 x).exchangeBytes x.ga e.2) := canon_exchangeBytes (canon_counted h)
      refine .ite (.some (canon_report h)) (.ite (.some (canon_exchangeBytes h)) ?_)
      split
      · next t b ht => exact .some (ih hx (t, some b) ht)
      · exact ih hx
theorem canon_spanBytes {k : AccKind} {va n : Nat} (h : Canon s) : InSome (fun r => Canon r.1) (spanBytes a k va n s) :=
  .ite (.some h) (canon_spanCuts h)
theorem canon_translates {k : AccKind} {va : Nat} (h : Canon s) : InSome (fun r => Canon r.1) (translates a k va s) := by
  unfold translates
  split
  · exact .none
  · exact .some (canon_tellLost (canon_noteFail h))
  · exact .some (canon_report h)
  · exact .some h
theorem canon_readKernel {va : Nat} {head : List Byte} (h : Canon s) : InSome (fun r => Canon r.1) (readKernel a va head s) := by
  refine .ite (.some h) (.bind (canon_spanBytes h) fun (t, db) ht => .bind (canon_spanBytes ht) fun (u, bb) hu => ?_)
  dsimp only
  split
  · exact .ite (.some hu) (.some hu)
  · exact .some hu
theorem canon_placeAt {n pos f : Nat} (h : Canon s) : Canon (placeAt a p f s pos n).1 := by
  induction f generalizing s n pos with
  | zero => exact h
  | succ f ih =>
    unfold placeAt
    extract_lets t c u w0
    have hu : Canon u.1 := canon_readVas _ h
    split
    · refine canon_ite_fst ?_ (ih hu)
      exact canon_readVas _ hu
    · exact ih hu
    · exact hu
theorem canon_boundCores {d : Desc} {pri : Nat} (h : Canon s) : Canon (boundCores a s p d pri).1 := by
  unfold boundCores
  extract_lets q t n
  have hp : Canon (placeAt a p (t.used / 16 + 1) s 0 n).1 := canon_placeAt h
  split
  · next u hu => rw [hu] at hp; exact hp
  · next u _ _ _ _ _ hu => rw [hu] at hp; exact canon_ite_fst hp hp
theorem canon_placement {d : Desc} {pri : Nat} (h : Canon s) : Canon (placement a s p d pri).1 := by
  unfold placement
  refine canon_ite_fst (canon_boundCores h) (canon_ite_fst h ?_)
  split
  · exact h
  · exact h
theorem canon_statusWrite {e : IntakeE} {state reason seq : Nat} (h : Canon s) : Canon (statusWrite s e state reason seq) :=
  canon_sideWriteBy h
theorem canon_postDone {e : IntakeE} {cw : CWord} (h : Canon s) : Canon (postDone s e cw) := canon_ite (canon_post h) h
theorem canon_refuseLaunch {key reason : Nat} {e : IntakeE} {d : Desc} (h : Canon s) : Canon (refuseLaunch s p key e d reason) := by
  unfold refuseLaunch
  extract_lets s1 s2 s3
  have h1 : Canon s1 := canon_modPart h
  have h3 : Canon s3 := canon_statusWrite (canon_ite (canon_modPart h1) h1)
  exact canon_ite h3 (canon_postDone h3)
theorem canon_enterParts {task pri seq r : Nat} {l : List Nat} (h : Canon s) : Canon (enterParts s task pri seq l r) := by
  induction l generalizing s r with
  | nil => exact h
  | cons c l ih => exact ih (canon_modCore h)
theorem canon_acceptLaunch {key : Nat} {e : IntakeE} {d : Desc} {k : Kernel} {chans cores : List Nat} (h : Canon s) :
    Canon (acceptLaunch s p key e d k chans cores) := by
  unfold acceptLaunch
  extract_lets seq id t r info task s1 s2 s3 s4
  have h3 : Canon s3 := canon_enterParts (canon_modPart (s := s1) h.same)
  exact canon_statusWrite (canon_ite (canon_traceWrite h3) h3)
theorem canon_launchChecks {e : IntakeE} {d : Desc} (h : Canon s) : InSome (fun r => Canon r.1) (launchChecks p e d s) := by
  refine .ite (.some h) (.bind (canon_spanBytes h) fun (t, head) ht => .bind (canon_translates ht) fun (u, args) hu =>
    .bind (canon_spanBytes hu) fun (v, tab) hv => ?_)
  dsimp only
  split
  · refine .bind (canon_readKernel hv) fun (w, r) hw => ?_
    cases r with
    | error r => exact .some hw
    | ok k =>
      refine .ite (.some hw) (.ite (.some hw) ?_)
      have hp := canon_placement (a := e.op s) (p := p) (d := d) (pri := e.pri) hw
      split
      · next x _ hx => rw [hx] at hp; exact .some hp
      · next x _ hx => rw [hx] at hp; exact .some hp
  · exact .some hv
theorem canon_serveHead {key : Nat} {e : IntakeE} (h : Canon s) : InSome Canon (serveHead p key e s) := by
  refine .bind (canon_spanBytes h) fun (t, b) ht => ?_
  cases b with
  | none => exact .bind (canon_spanBytes ht) fun (u, half) hu => .some (canon_refuseLaunch hu)
  | some b =>
    refine .bind (canon_launchChecks ht) fun (u, r) hu => ?_
    cases r with
    | error r => exact .some (canon_refuseLaunch hu)
    | ok r => exact .ite (.some (canon_modPart hu)) (.some (canon_acceptLaunch hu))
theorem canon_serveOn {v : Serving} (h : Canon s) : InSome Canon (serveOn p v s) := by
  unfold serveOn
  extract_lets now r
  have hr : Canon r.1 := canon_ite_fst h (canon_placement h)
  clear_value r
  obtain ⟨u, e | cores⟩ := r
  · exact .some (canon_refuseLaunch hr)
  · exact .ite (.some (canon_acceptLaunch hr)) (.ite .none (.some (canon_modPart hr)))
theorem canon_execIntakeStep (h : Canon s) : InNext Canon (execIntakeStep p s) := by
  have hs : Canon (payTraces s p) := canon_payTraces h
  refine canon_event hs (.ite .none ?_)
  split
  · exact .ite .none (canon_serveOn hs)
  split
  · exact .none
  split
  · exact .none
  · exact canon_serveHead hs
  · exact .some (canon_report (canon_noteMiss (canon_modPart hs)))
  · exact .some (canon_report (canon_modPart hs))
theorem canon_startPart {c x : Nat} {e : LqEntry} {t : Task} (h : Canon s) : Canon (startPart s c x e t) := by
  unfold startPart
  extract_lets p tr r s1 s2 mark s3 s4 s5
  have h3 : Canon s3 := h.same
  have h4 : Canon s4 := canon_ite (canon_traceWrite h3) (canon_ite (canon_modPart h3) h3)
  exact canon_makeReady (canon_ite (canon_statusWrite h4) h4)
theorem canon_execPartStart {c : Nat} (h : Canon s) : InNext Canon (execPartStart c s) := by
  refine canon_event h ?_
  split
  · split
    · exact .ite (.some (canon_startPart h)) .none
    · exact .none
  · exact .none
theorem canon_closeTask {t : Task} (h : Canon s) : Canon (closeTask s t) := canon_ite h.same h.same
theorem canon_execTaskComplete {task : Nat} (h : Canon s) : InNext Canon (execTaskComplete task s) := by
  refine canon_event h ?_
  split
  · exact .none
  · exact .ite (.ite (.some (canon_closeTask h)) .none)
      (.ite .none (.some (canon_postDone (canon_statusWrite (canon_modPart (canon_closeTask h))))))
theorem canon_execEndedCauseRecord {task : Nat} (h : Canon s) : InNext Canon (execEndedCauseRecord task s) := by
  refine canon_event h ?_
  split
  · exact .none
  split
  · exact .none
  split
  · exact .none
  next t ht =>
    have h' := (canon_postRecord h).1 t ht
    exact .some (canon_closeTask (canon_ite (canon_logEvent h') h'))

/-! #### Translation and shelf switches (Partition) -/

/-- The walk that waited for a page is done. -/
theorem canon_dropWalk {op : Option Async} (h : Canon s) : Canon (op.elim s fun a => s.dropOp a.id) :=
  canon_elim h fun _ => canon_dropOp h
theorem canon_execTableWalk {c va : Nat} (h : Canon s) : InNext Canon (execTableWalk c va s) := by
  unfold execTableWalk
  extract_lets p op dropWalk
  have hd : ∀ {t}, Canon t → Canon (dropWalk t) := canon_dropWalk
  refine canon_event h (.ite .none (.ite (.some (hd h)) ?_))
  split
  · exact .some (hd (canon_noteFail h))
  extract_lets e s1
  have h1 : Canon s1 := canon_ite h (canon_fillCore h)
  exact .some (hd (canon_ite h1 (canon_fillClu h1)))
theorem canon_execCounterAdd {c va : Nat} (h : Canon s) : InNext Canon (execCounterAdd c va s) := by
  refine canon_event h ?_
  dsimp only
  split
  · exact .none
  · exact .ite .none (.some (canon_modCore (canon_addCounter h)))
theorem canon_readTcb (h : Canon s) : Canon (readTcb s p) := h.same
theorem canon_unmark {f : Nat → Bool} (h : Canon s) : Canon (unmark s f) := h.same
theorem canon_invalidate {kind va : Nat} (h : Canon s) : Canon (invalidate s p kind va) :=
  canon_ite (canon_recFlush (canon_ringFlush (canon_readTcb (canon_unmark (canon_dropTlb h)))))
    (canon_recFlush (canon_ringFlush (canon_unmark (canon_dropTlb h))))
theorem canon_copyHome {src dst : Nat} (n : Nat) (h : Canon s) : Canon (copyHome src dst n s) := by
  induction n generalizing s with
  | zero => exact h
  | succ n ih =>
    unfold copyHome
    extract_lets t
    have ht : Canon t := canon_exchange (canon_store h)
    exact ih (canon_ite ht.same ht)
/-- Either answer of a release copy. -/
def CopyHolds (P : State → Prop) : Except (State × Cause) (Option State) → Prop
  | .error (s, _) => P s
  | .ok o => InSome P o
theorem CopyHolds.ite {P : State → Prop} {c : Prop} [Decidable c] {x y : Except (State × Cause) (Option State)}
    (hx : CopyHolds P x) (hy : CopyHolds P y) : CopyHolds P (if c then x else y) := by
  split
  · exact hx
  · exact hy
theorem canon_releaseCopy {va : Nat} (h : Canon s) : CopyHolds Canon (releaseCopy s a va) := by
  unfold releaseCopy
  split
  · exact InSome.some h
  dsimp only
  split
  · exact InSome.some h
  · refine .ite h (.ite (canon_exchange h) (.ite InSome.none (.ite h ?_)))
    exact InSome.some (canon_copyHome _ h)
theorem canon_execTlbinvComplete {id : Nat} (h : Canon s) : InNext Canon (execTlbinvComplete id s) := by
  refine canon_onOp h fun a => ?_
  split
  next kind va cw _ =>
    have hi : Canon (invalidate s a.part kind va) := canon_invalidate h
    refine .ite .none (.ite .none (.ite (.some (canon_finish hi)) ?_))
    have hc := canon_releaseCopy (a := a) (va := va) (canon_elim (o := wbPoison (invalidate s a.part kind va) a.part va) hi
      fun l => canon_markLine (die := dieOf a.core) (line := l) hi)
    split
    · next t q ht => rw [ht] at hc; exact .some (canon_failOp hc)
    · exact .none
    · next t ht => rw [ht] at hc; exact .some (canon_finish (hc t rfl))
  · exact .none
theorem canon_lossNotice {peer : Nat} {al : Alloc} (h : Canon s) : Canon (lossNotice p peer s al) := by
  unfold lossNotice
  extract_lets info bytes t
  have ht : Canon t := h.same
  split
  · next u hu => exact canon_ringPostOrHold ht u hu
  · exact canon_ringDrop ht
theorem canon_inFlightLoss {dest : Nat} {before : List Alloc} (h : Canon s) : Canon (inFlightLoss p dest before s a) := by
  unfold inFlightLoss
  split
  · exact h
  split
  · exact h
  extract_lets lost did t
  have hl : ∀ {t}, Canon t → Canon (lost t) := canon_failOp
  have ht : Canon t := h.same
  refine canon_ite ?_ (canon_ite (canon_setOp h) h)
  split
  · exact hl h
  · exact hl (canon_ite (canon_store ht) ht)
  · exact canon_setOp h
theorem canon_loseSwitch {dest peer : Nat} (h : Canon s) : Canon (loseSwitch p dest s peer) :=
  canon_foldl (fun _ _ => canon_lossNotice) _
    (canon_dropTlb (canon_modPart (canon_foldl (fun _ _ => canon_inFlightLoss) _ h)))
theorem canon_loseDest {dest : Nat} (h : Canon s) : Canon (loseDest s dest) :=
  canon_foldl (fun _ _ ht => canon_foldl (fun _ _ => canon_loseSwitch) _ ht) _ h
theorem canon_execShelfSwitchFailure {dest : Nat} (h : Canon s) : InNext Canon (execShelfSwitchFailure dest s) :=
  .next (canon_loseDest (dest := dest) h).same

end

section
variable {s : State} {a : Async} {c : Coll} {d : CollDesc} {p id : Nat}

/-! #### Collectives (Collective) -/

theorem canon_setColl (h : Canon s) : Canon (s.setColl c) := h.same
theorem canon_dropColl (h : Canon s) : Canon (s.dropColl id) := h.same
theorem canon_failColl {q other : Cause} (h : Canon s) : Canon (failColl s c id q other) :=
  canon_foldl (fun _ _ => canon_failOp) _ (canon_dropColl h)
theorem canon_joinColl {task lgroup group : Nat} {r : CollRank} (h : Canon s) : Canon (joinColl s p task lgroup group r) := by
  unfold joinColl
  extract_lets mine c s1 c' need
  have h1 : Canon s1 := canon_ite h h.same
  exact canon_ite (canon_setColl h1) (canon_ite (canon_failColl h1) (canon_ite (canon_setColl h1) (canon_failColl h1)))
theorem canon_sendAll {l : List Nat} (h : Canon s) : Canon (l.foldl State.sendOn s) := canon_foldl (fun _ _ => canon_sendOn) _ h
theorem canon_execCollRegistration (h : Canon s) : InNext Canon (execCollRegistration id s) := by
  refine canon_onOp h fun a => ?_
  split
  · exact .ite .none (.some (canon_joinColl (canon_sendAll h)))
  · exact .none
theorem canon_readSpan {va : Nat} {l : List Nat} (h : Canon s) : InOk (fun r => Canon r.1) (readSpan a s va l) := by
  induction l generalizing s va with
  | nil => exact .ok h
  | cons n l ih =>
    unfold readSpan
    split
    · exact .error
    next t b ht =>
      have h' : Canon t := canon_readChunk h (t, b) ht
      split
      · exact .error
      · next u l' hu => exact .ok (ih h' (u, l') hu)
theorem InOk.mapError {α ε ε' : Type} {P : α → Prop} {r : Except ε α} {f : ε → ε'} (hr : InOk P r) : InOk P (r.mapError f) := by
  cases r with
  | error e => exact .error
  | ok a => exact .ok (hr a rfl)
theorem canon_stageOne {off n : Nat} {r : CollRank} (h : Canon s) : InOk (fun r => Canon r.1) (stageOne s off n r) := by
  unfold stageOne
  refine .ite (.ok h) ?_
  split
  · exact .ok h
  split
  · exact .error
  split
  · exact .ok h
  · exact .mapError (canon_readSpan h)
theorem canon_stageAll {off n : Nat} {l : List CollRank} (h : Canon s) : InOk (fun r => Canon r.1) (stageAll off n s l) := by
  induction l generalizing s with
  | nil => exact .ok h
  | cons r l ih =>
    unfold stageAll
    split
    · exact .error
    next t b ht =>
      have h' : Canon t := canon_stageOne h (t, b) ht
      split
      · exact .error
      · next u l' hu => exact .ok (ih h' (u, l') hu)
theorem canon_missColl {m : Miss} (h : Canon s) : InSome Canon (missColl s c id m) := by
  unfold missColl
  split
  · exact .none
  split
  · exact .none
  · exact .some (canon_failColl h)
  · have hc := fun a line va shelf => canon_consumeFar (a := a) (line := line) (va := va) (shelf := shelf) (copy := some 0x35)
      (canon_exchange (ga := 64 * line) h)
    exact .ite (.some (hc _ _ _ _)) (.some (canon_failColl (hc _ _ _ _)))
  next f va write =>
    have ht := fun a => canon_turnedAway (a := a) (k := if write then .write else .read) (va := va) h
    dsimp only
    split
    · exact .some (canon_failColl (canon_noteFail (ht _)))
    · exact .some (canon_failColl (ht _))
    · exact .ite (.some (canon_failColl (ht _))) (.some (canon_setOp (ht _)))
    · exact .none
/-- A chunk goes on once its contributions stand in the staging stores. -/
theorem canon_staged {f : State → Coll → Option State} (hf : ∀ s c, Canon s → InSome Canon (f s c)) (h : Canon s) :
    InSome Canon (staged s c d f) := by
  unfold staged
  refine .ite (hf _ _ h) ?_
  split
  · exact canon_missColl h
  · next t l ht => exact hf _ _ (canon_stageAll h (t, l) ht)
theorem canon_spend {l : List Async} (h : Canon s) : Canon (s.spend l) := h.same
theorem canon_onColl {f : Coll → CollDesc → Option State} (h : Canon s) (hf : ∀ c d, InSome Canon (f c d)) :
    InNext Canon (onColl s id f) :=
  canon_event h (.bind (.any _) fun _ _ => .map (.bind (.any _) fun _ _ => hf _ _) fun _ ht => canon_spend ht)
theorem canon_hop {n : Nat} {x y : Option CollRank} (h : Canon s) : Canon (hop s n x y) := by
  unfold hop
  split
  · split
    · exact canon_exchangeTo h
    · exact canon_exchangeTo h
    · exact h
  · exact h
theorem canon_hopSwitch {n : Nat} (h : Canon s) : Canon (hopSwitch s c n) := canon_elim h fun _ => canon_exchangeTo h
theorem canon_execChainPartialArrival (h : Canon s) : InNext Canon (execChainPartialArrival id s) :=
  canon_onColl h fun _ _ => .ite .none (canon_staged (fun _ _ ht =>
    .ite (.some (canon_setColl ht)) (.some (canon_setColl (canon_hop ht)))) h)
theorem canon_execSwitchResult (h : Canon s) : InNext Canon (execSwitchResult id s) := by
  refine canon_onColl h fun _ _ => .ite .none (canon_staged (fun _ _ ht => ?_) h)
  split
  · exact .none
  · exact .some (canon_setColl (canon_hopSwitch ht))
theorem canon_execFallback (h : Canon s) : InNext Canon (execFallback id s) :=
  canon_onColl h fun _ _ => .ite .none (canon_staged (fun _ _ ht =>
    .some (canon_setColl (canon_elim ht fun _ => canon_heard (canon_exchangeTo ht)))) h)
theorem canon_writeColl {l : List (List (Nat × Byte))} (h : Canon s) : InOk Canon (writeColl a s l) := by
  induction l generalizing s with
  | nil => exact .ok h
  | cons g l ih =>
    unfold writeColl
    refine .ite ?_ ?_
    · dsimp only
      split
      · exact .error
      · exact ih (canon_store h)
    · split
      · exact .error
      · next t ht => exact ih (canon_writeGroup h t ht)
theorem canon_writeRanks {l : List CollRank} (h : Canon s) : InOk Canon (writeRanks c d s l) := by
  induction l generalizing s with
  | nil => exact .ok h
  | cons r l ih =>
    unfold writeRanks
    split
    · exact ih h
    split
    · exact .error
    · next t ht => exact ih (canon_writeColl h t ht)
theorem canon_sendPiece {r : CollRank} {g : (Nat × List Byte) × Nat} (h : Canon s) : Canon (sendPiece c d r s g) := by
  unfold sendPiece
  split
  · exact canon_hop h
  · exact canon_ite (canon_hopSwitch h) h
theorem canon_sendResults (h : Canon s) : Canon (sendResults c d s) :=
  canon_foldl (fun _ _ ht => canon_foldl (fun _ _ => canon_sendPiece) _ ht) _ h
theorem canon_finishColl (h : Canon s) : Canon (finishColl s c) := by
  refine canon_foldl (fun s a ht => ?_) _ (canon_dropColl h)
  split
  · exact canon_finish ht
  · exact ht
theorem canon_execChunkAcknowledged (h : Canon s) : InNext Canon (execChunkAcknowledged id s) := by
  refine canon_onColl h fun c d => .ite .none (canon_staged (fun t k ht => ?_) h)
  split
  · exact canon_missColl (canon_setColl ht)
  · next u hu =>
    have hr : Canon (sendResults k d u) := canon_sendResults (canon_writeRanks ht u hu)
    exact .some (canon_ite (canon_finishColl hr) (canon_setColl hr))

/-! #### The fabric (Fabric) -/

theorem canon_farBeat {src : Nat} {bytes : List Byte} (h : Canon s) : Canon (farBeat s p src bytes) := canon_post h
theorem canon_farArrival {src : Nat} {bytes : List Byte} (h : Canon s) : Canon (farArrival s p src bytes) := canon_post h
theorem canon_receive {i : FabItem} (h : Canon s) : Canon (receive s i) := by
  unfold receive
  split
  · exact canon_ite (canon_sendOn h) h
  refine canon_ite (canon_ite h.same (canon_sendOn h)) ?_
  split
  · exact canon_sendOn (canon_farBeat h)
  · exact canon_post h
  · exact canon_joinColl h
  · exact canon_sendOn (canon_farArrival h)
  · exact h
theorem canon_performArrived {e : Nat × FabItem} (h : Canon s) : InSome Canon (performArrived s e) := by
  unfold performArrived
  extract_lets i x put n t
  have hput : ∀ bytes, Canon (put bytes) := fun _ => canon_ite (canon_store h) h
  have ht : Canon t := by
    refine canon_ite h ?_
    split
    · exact hput _
    · exact canon_ite h (hput _)
    · exact h
  exact .ite .none (.some (canon_sendOn ht.same))
theorem canon_takeItem {i : FabItem} (h : Canon s) : Canon (takeItem s i) := canon_receive h.same
theorem canon_dropHeld {src seq : Nat} (h : Canon s) : Canon (dropHeld s src seq) := h.same
theorem canon_drainHeld {src : Nat} (n : Nat) (h : Canon s) : Canon (drainHeld src n s) := by
  induction n generalizing s with
  | zero => exact h
  | succ n ih =>
    unfold drainHeld
    split
    · exact h
    · exact ih (canon_takeItem (canon_dropHeld h))
theorem canon_execFabricReceive {src tenant seq kind addr : Nat} {bytes : List Byte} (h : Canon s) :
    InNext Canon (execFabricReceive src tenant seq kind addr bytes s) :=
  .next (canon_ite (canon_drainHeld _ (canon_takeItem (canon_dropHeld h))) (canon_ite h h.same))
theorem canon_setPort {q : Port} (h : Canon s) : Canon (s.setPort p q) := h.same
theorem canon_reformMoved {old : State} (h : Canon s) : Canon (reformMoved old s) := h.same
theorem canon_countFailure (h : Canon s) : Canon (countFailure s p) := canon_logEvent (canon_setPort h)
theorem canon_linkUp {l fw0 fw1 : Nat} (h : Canon s) : Canon (linkUp s p l fw0 fw1) :=
  canon_ite (canon_countFailure (canon_setPort h)) (canon_reformMoved (canon_setPort h))
theorem canon_execLinkUp {link far fw0 fw1 : Nat} (h : Canon s) : InNext Canon (execLinkUp p link far fw0 fw1 s) :=
  canon_event h (.ite .none (.some (canon_linkUp (canon_ite h (canon_setPort h)))))
theorem canon_execLinkRetrain {link fw0 fw1 : Nat} (h : Canon s) : InNext Canon (execLinkRetrain p link fw0 fw1 s) :=
  canon_event h (.ite .none (.some (canon_linkUp h)))
theorem canon_execFlitReplay {link : Nat} (h : Canon s) : InNext Canon (execFlitReplay p link s) :=
  canon_event h (.ite .none (.some (canon_setPort h)))
theorem canon_execLinkFailure {link : Nat} (h : Canon s) : InNext Canon (execLinkFailure p link s) :=
  have hf := fun q => canon_countFailure (p := p) (canon_setPort (p := p) (q := q) h)
  canon_event h (.ite .none (.some (canon_ite (hf _) (canon_reformMoved (canon_logEvent (hf _))))))
theorem canon_giveUp {dest : Nat} (h : Canon s) : Canon (giveUp dest s a) := by
  unfold giveUp
  split
  · exact canon_ite (canon_failOp h) h
  · exact h
theorem canon_collGone {dest : Nat} (h : Canon s) : Canon (collGone dest s c) := canon_ite (canon_failColl h) h
theorem canon_execDestinationUnreachable {dest : Nat} (h : Canon s) : InNext Canon (execDestinationUnreachable dest s) := by
  refine canon_event h ?_
  extract_lets s1 s2 s3
  have h3 : Canon s3 := canon_foldl (fun _ _ => canon_collGone) _ (canon_foldl (fun _ _ => canon_giveUp) _ (canon_loseDest h))
  exact .ite .none (.some h3.same)
theorem canon_execReachableMark {dest : Nat} (h : Canon s) : InNext Canon (execReachableMark dest s) :=
  canon_event h (.ite .none (.some h.same))

/-! #### What Kloty grants (Grants) -/

theorem canon_execSlotTableSwitch (h : Canon s) : InNext Canon (execSlotTableSwitch p s) :=
  canon_event h (.map (.any _) fun _ _ => h.same)
theorem canon_writeTables {cfg : PartCfg} {l : List Nat} (h : Canon s) : Canon (writeTables cfg l s) := by
  induction l generalizing s with
  | nil => exact h
  | cons t l ih => exact ih h.same
theorem canon_writeRoutes {cfg : PartCfg} (h : Canon s) : Canon (writeRoutes s cfg) := h.same
theorem canon_setRoutes {cfg : PartCfg} (h : Canon s) : Canon (setRoutes s cfg) := canon_reformMoved (canon_writeRoutes h)
theorem canon_ownCores {control : Nat} {l : List Nat} (h : Canon s) : Canon (ownCores p control l s) := by
  induction l generalizing s with
  | nil => exact h
  | cons c l ih => exact ih (canon_foldl (fun _ _ => canon_modCtx) _ (canon_modCore h))
theorem canon_startSupervisor {cfg : PartCfg} (h : Canon s) : Canon (startSupervisor s cfg) :=
  canon_makeReady (canon_setCtx (canon_tryWrite h))
theorem canon_setPart {q : Part} (h : Canon s) : Canon (s.setPart p q) := h.same
theorem canon_execPartitionCreate {n : Nat} (h : Canon s) : InNext Canon (execPartitionCreate n s) := by
  refine canon_event h ?_
  split
  · exact .none
  · exact .ite .none (.ite .none (.some (canon_startSupervisor
      (canon_setRoutes (canon_writeTables (canon_readTcb (canon_ownCores (canon_setPart h))))))))
theorem canon_applyChange {new : PartCfg} (h : Canon s) : Canon (applyChange s p new) :=
  canon_setRoutes (canon_writeTables (canon_ownCores (canon_modPart
    (canon_foldl (fun _ _ => canon_modCore) _ (canon_dropTlb h)))))
theorem canon_afterChange {old new : PartCfg} (h : Canon s) : InSome Canon (afterChange s old new) :=
  .ite (.some h) (.ite .none (.some (canon_startSupervisor h)))
theorem canon_execPartitionChange (h : Canon s) : InNext Canon (execPartitionChange p s) := by
  refine canon_event h (.ite .none ?_)
  split
  · exact .ite (canon_afterChange (canon_applyChange h)) .none
  split
  · exact .ite (.some (canon_modPart h)) .none
  · exact .none

end

section
variable {s t : State} {c x p : Nat}

/-! #### Gears, power, heat, wear and saves (Power) -/

theorem canon_execGearChange (h : Canon s) : InNext Canon (execGearChange c s) :=
  canon_event h (.map (.any _) fun _ _ => canon_modCore h)
theorem canon_chargeResident {w : Nat} (h : Canon s) : Canon (chargeResident s c w) := by
  unfold chargeResident
  split
  · exact canon_charge h
  · exact h
theorem canon_execGearChangeDone (h : Canon s) : InNext Canon (execGearChangeDone c s) := by
  refine canon_event h ?_
  split
  · exact .none
  · exact .some (canon_modCore (canon_ite (canon_chargeGear h) h))
theorem canon_execStaticTick (h : Canon s) : InNext Canon (execStaticTick c s) := by
  unfold execStaticTick
  extract_lets k s1 s2
  have h2 : Canon s2 := canon_modCore (canon_chargeResident h)
  exact .next h2.same
theorem canon_setCapg {g : Nat} (h : Canon s) : Canon (setCapg s c g) := canon_modCore h
theorem canon_lowerCapg (h : Canon s) : Canon (lowerCapg s c) := canon_setCapg h
theorem canon_raiseCapg (h : Canon s) : Canon (raiseCapg s c) := canon_setCapg h
theorem canon_controlPart (h : Canon s) : Canon (controlPart s p) := by
  unfold controlPart
  extract_lets q s1
  have h1 : Canon s1 := canon_modPart h
  exact canon_ite h (canon_ite (canon_ite h1 (canon_modPart (canon_foldl (fun _ _ => canon_lowerCapg) _ h1)))
    (canon_ite (canon_ite (canon_modPart (canon_foldl (fun _ _ => canon_raiseCapg) _ h)) (canon_modPart h)) (canon_modPart h)))
theorem canon_controlModule (h : Canon s) : Canon (controlModule s) := by
  unfold controlModule
  extract_lets n power s1
  have h1 : Canon s1 := h.same
  exact canon_ite (canon_foldl (fun _ _ => canon_lowerCapg) _ h1) h1
theorem canon_execCapControllerStep (h : Canon s) : InNext Canon (execCapControllerStep s) := by
  unfold execCapControllerStep
  extract_lets power s1
  have h1 : Canon s1 := h.same
  exact .next (canon_controlModule (canon_foldl (fun _ _ => canon_controlPart) _ h1))
theorem canon_execThermalHold {die : Nat} (h : Canon s) : InNext Canon (execThermalHold die s) := by
  unfold execThermalHold
  extract_lets power s1
  have h1 : Canon s1 := h.same
  exact .next (canon_foldl (fun _ _ => canon_setCapg) _ h1)
theorem canon_execThermalRelease {die : Nat} (h : Canon s) : InNext Canon (execThermalRelease die s) := .next h.same
theorem canon_execDroopTrip {k : Nat} (h : Canon s) : InNext Canon (execDroopTrip k s) := .next h.same
theorem canon_execDroopRecovery {k : Nat} (h : Canon s) : InNext Canon (execDroopRecovery k s) := .next h.same
theorem canon_modStack {n : Nat} {f : Stack → Stack} (h : Canon s) : Canon (s.modStack n f) := h.same
theorem canon_execHbmFrequencyChange {n f : Nat} (h : Canon s) : InNext Canon (execHbmFrequencyChange n f s) :=
  canon_event h (.ite .none (.some (canon_modStack h)))
theorem canon_catchUp (h : Canon s) : Canon (catchUp s) := canon_foldl (fun _ _ => canon_payTraces) _ (canon_payOwed h)
theorem canon_postAll (h : Canon s) : Canon (postAll s) := canon_foldl (fun _ _ ht => canon_recFlush (canon_ringFlush ht)) _ h
theorem canon_execRetrainingPauseEnd {n : Nat} (h : Canon s) : InNext Canon (execRetrainingPauseEnd n s) :=
  canon_event h (.ite .none (.some (canon_postAll (canon_catchUp (canon_modStack h)))))
theorem canon_execHbm4Refresh {n : Nat} (h : Canon s) : InNext Canon (execHbm4Refresh n s) := canon_event h (.ite .none (.some h))
theorem canon_execBallastEstimate {k : Nat} (h : Canon s) : InNext Canon (execBallastEstimate k s) := by
  unfold execBallastEstimate
  extract_lets s1 w line run power q last q'
  have h1 : Canon s1 := h.same
  have hq : Canon { s1 with power := q' } := h1.same
  exact .next (canon_ite h1.same (canon_ite hq (canon_logRecord hq)))
theorem canon_execWearSwing {die deg : Nat} (h : Canon s) : InNext Canon (execWearSwing die deg s) :=
  canon_event h (.ite .none (.some h.same))
theorem canon_execWearFlashWrite (h : Canon s) : InNext Canon (execWearFlashWrite s) := .next h.same
theorem canon_trainRecord {i : Nat} (h : Canon s) : Canon (trainRecord s i) := h.same
theorem canon_execOrderlyShutdown (h : Canon s) : InNext Canon (execOrderlyShutdown s) := by
  unfold execOrderlyShutdown
  extract_lets s1
  have h1 : Canon s1 := canon_foldl (fun _ _ => canon_trainRecord) _ h
  clear_value s1
  exact .next h1.same
theorem canon_stopAll {l : List (Nat × Nat)} (h : Canon s) : Canon (stopAll s l) := canon_foldl (fun _ _ => canon_suspendCmd) _ h
theorem canon_resumeAll {l : List (Nat × Nat)} (h : Canon s) : Canon (resumeAll s l) :=
  canon_foldl (fun _ _ ht => canon_ite (canon_goOn ht) ht) _ h
theorem canon_setCkst {v : Nat} (h : Canon s) : Canon (setCkst s v) := h.same

/-! A save holds a part of memory, which is canonical with the whole; what a restart puts back is that part. -/

theorem snapshot_wf {gen ptime len : Nat} {ok : Bool} (h : Canon s) : Memory.wf (snapshot s gen ptime len ok).mem = true :=
  KV.wf_filter 0 s.mem _ h.1
/-- What `emergency` holds after an update is nothing or a save whose memory is canonical. -/
theorem Canon.withEmergency {o : Option Snap} (h : Canon s) (ho : InSome (fun n => Memory.wf n.mem = true) o) (he : t.emergency = o)
    (hm : t.mem = s.mem := by rfl) (hc : t.checkpoint = s.checkpoint := by rfl) : Canon t := by
  obtain ⟨hmem, hck, -⟩ := h
  exact ⟨hm ▸ hmem, hc ▸ hck, he ▸ ho⟩
theorem Canon.withCheckpoint {n : Snap} (h : Canon s) (hn : Memory.wf n.mem = true) (hc : t.checkpoint = some n)
    (hm : t.mem = s.mem := by rfl) (he : t.emergency = s.emergency := by rfl) : Canon t := by
  obtain ⟨hmem, -, hem⟩ := h
  exact ⟨hm ▸ hmem, hc ▸ InSome.some hn, he ▸ hem⟩
theorem canon_execEmergencySave (h : Canon s) : InNext Canon (execEmergencySave s) := by
  refine canon_event h ?_
  extract_lets s1 s2 snap s3 kept
  have h1 : Canon s1 := canon_ite (canon_setCkst (canon_resumeAll h)) h
  have h2 : Canon s2 := h1.same
  have h3 : Canon s3 := canon_stopAll h2.same
  exact .ite .none (.some (h3.withEmergency (.ite .none (.some (snapshot_wf h2))) rfl))
theorem canon_execPowerRemoval (h : Canon s) : InNext Canon (execPowerRemoval s) := by
  obtain ⟨hmem, hck, hem⟩ := h
  exact .next ⟨KV.wf_filter 0 s.mem _ hmem, hck, hem⟩
theorem canon_abortPart {task : Nat} {q : TaskPart} (h : Canon s) : Canon (abortPart task s q) := by
  unfold abortPart
  split
  · exact canon_modCore h
  · exact canon_endTask h
  · exact canon_clearBusy h
  · exact h
theorem canon_abortTask {task : Nat} (h : Canon s) : Canon (abortTask s task) := by
  unfold abortTask
  extract_lets s1 gone
  have h1 : Canon s1 := canon_elim h fun _ => canon_foldl (fun _ _ => canon_abortPart) _ h
  exact h1.same
theorem canon_failGivenUp {l : List Nat} {ops : List Async} (h : Canon s) : Canon (failGivenUp l ops s) :=
  canon_foldl (fun _ _ => canon_failOp) _ h
theorem canon_restoreSnap {n : Snap} {l : List Nat} (h : Canon s) (hn : Memory.wf n.mem = true) : Canon (restoreSnap s n l) := by
  unfold restoreSnap
  extract_lets mem top s1 s2 s3 s4
  have h1 : Canon s1 := h.withMem (KV.wf_foldl_put 0 _ n.mem hn)
  have h2 : Canon s2 := canon_foldl (fun _ _ ht => canon_setRoutes (canon_writeTables ht)) _ h1
  have h3 : Canon s3 := canon_failGivenUp (canon_foldl (fun _ _ => canon_abortTask) _ h2)
  exact canon_foldl (fun _ _ => canon_pickNext) _ (canon_foldl (fun _ _ => canon_setCapg) _ (canon_payOwed h3))
theorem canon_execRestartRestore (h : Canon s) : InNext Canon (execRestartRestore s) := by
  obtain ⟨-, hck, hem⟩ := id h
  refine canon_event h (.ite .none ?_)
  split
  · next n hn => exact .some ((canon_restoreSnap h (hem n (Option.eq_some_of_filter_eq_some hn))).withEmergency .none rfl)
  · exact .map hck fun n hn => canon_restoreSnap h hn

/-! #### Bring-up, the host link, checkpoints and attestation (HostSide) -/

theorem canon_execPowerOn (h : Canon s) : InNext Canon (execPowerOn s) := canon_event h (.ite .none (.some h.same))
theorem canon_bootRom (h : Canon s) : Canon (bootRom s) := by
  unfold bootRom
  split
  · exact h.same
  · extract_lets host s1
    have h1 : Canon s1 := h.same
    exact canon_foldl (fun _ _ ht => canon_foldl (fun _ _ => canon_modCtx) _ ht) _ h1
theorem canon_trainOne {i : Nat} (h : Canon s) : Canon (trainOne s i) := canon_ite h.same h.same
theorem canon_placeExpanders (h : Canon s) : Canon (placeExpanders s) := by
  unfold placeExpanders
  extract_lets all ok host
  have h1 : Canon { s with host := { host with extLost := s.flash.expBad, safe := ok } } := h.same
  exact canon_foldl (fun _ _ => canon_logEvent) _ h1
theorem canon_ready (h : Canon s) : Canon (ready s) := h.same
theorem canon_stageEffect {n : Nat} (h : Canon s) : Canon (stageEffect s n) := by
  unfold stageEffect
  extract_lets s1
  have h1 : Canon s1 := canon_foldl (fun _ _ => canon_trainOne) _ h
  split
  · exact h1.same
  · exact h1.same
  · exact canon_placeExpanders h1
  · exact h1
theorem canon_execBootStageComplete {n : Nat} (h : Canon s) : InNext Canon (execBootStageComplete n s) := by
  refine canon_event h ?_
  extract_lets s1 host s2 host' s3
  have h1 : Canon s1 := canon_bootRom h
  have h2 : Canon s2 := canon_stageEffect h
  have h3 : Canon s3 := h2.same
  exact .ite .none (.ite (.some h1.same) (.some (canon_ite (canon_ready h3) h3)))
theorem canon_execExpanderReturn (h : Canon s) : InNext Canon (execExpanderReturn p s) := .next h.same
theorem canon_execFdoorSubmit {f0 f1 f2 f3 : Nat} (h : Canon s) : InNext Canon (execFdoorSubmit f0 f1 f2 f3 s) :=
  .next (canon_ite h.same h.same)
theorem canon_execCapsetWrite {v : Nat} (h : Canon s) : InNext Canon (execCapsetWrite v s) :=
  canon_event h (.ite .none (.some (canon_ite h.same h.same)))
theorem canon_startCheckpoint (h : Canon s) : InSome Canon (startCheckpoint s) := by
  unfold startCheckpoint
  extract_lets s1 l s2
  have h1 : Canon s1 := h.same
  have h2 : Canon s2 := canon_setCkst (canon_stopAll h1)
  exact .ite .none (.ite (.some (canon_setCkst h)) (.some h2.same))
theorem canon_setCkctl {start sec : Nat} (h : Canon s) : Canon (setCkctl s start sec) := h.same
theorem canon_execCheckpointStart (h : Canon s) : InNext Canon (execCheckpointStart s) :=
  .next ((canon_startCheckpoint (canon_setCkctl h)).getD (canon_setCkctl h))
theorem canon_execCheckpointPeriod {sec : Nat} (h : Canon s) : InNext Canon (execCheckpointPeriod sec s) := .next (canon_setCkctl h)
theorem canon_execPeriodicCheckpoint (h : Canon s) : InNext Canon (execPeriodicCheckpoint s) :=
  canon_event h (.ite .none (canon_startCheckpoint h))
theorem canon_execCheckpointComplete (h : Canon s) : InNext Canon (execCheckpointComplete s) := by
  refine canon_event h ?_
  extract_lets gen s1 host s2
  have h1 : Canon s1 := canon_resumeAll h
  have h2 : Canon s2 := h1.withCheckpoint (snapshot_wf h1) rfl
  exact .ite .none (.some (canon_setCkst h2))
theorem canon_execAttestationRequest {addr : Nat} (h : Canon s) : InNext Canon (execAttestationRequest addr s) := .next h.same
theorem canon_useIndex (h : Canon s) : Canon (useIndex s) := h.same
theorem canon_execAttestationReportReady (h : Canon s) : InNext Canon (execAttestationReportReady s) := by
  refine canon_event h ?_
  extract_lets signed s1 s2
  have h1 : Canon s1 := canon_store h
  have h2 : Canon s2 := canon_ite (canon_useIndex h1) h1
  exact .ite .none (.some h2.same)
theorem canon_execKlotyQueueRecord {die : Nat} (h : Canon s) : InNext Canon (execKlotyQueueRecord die s) := by
  refine canon_event h ?_
  split
  · exact .none
  · exact .some (canon_logEvent (canon_modPart h))
theorem canon_execHostWindowAccess {addr : Nat} {write : Bool} {bytes : List Byte} (h : Canon s) :
    InNext Canon (execHostWindowAccess addr write bytes s) :=
  canon_event h (.ite .none (.ite (.ite .none (.some (canon_store h))) (.some h.same)))

end

section
variable {s : State} {a : Async} {c x id : Nat}

/-! #### Whole bundles (Bundle) -/

/-- The operation that a syllable word stands for keeps the form, whatever the word. -/
theorem sylOf_keeps {t : Nat × Nat × Option Nat} {k off : Nat} {dict : Option Nat} {own : Bool} {o : Op}
    (ho : (sylOf t k dict off own).op = some o) : o.Keeps := by
  unfold sylOf at ho
  dsimp only at ho
  split at ho
  · exact opOf_keeps ho
  · cases ho
theorem sylsOf_keep {r : Regs} {stk : Bool} {own : List (Nat × Nat × Option Nat)} {dict : Option Nat} :
    SylsKeep (sylsOf r stk own dict) := by
  intro y hy o ho
  obtain ⟨slot, -, hs⟩ := List.mem_filterMap.mp hy
  split at hs
  · cases hs
    exact sylOf_keeps ho
  · split at hs
    · obtain ⟨z, -, rfl⟩ := Option.map_eq_some_iff.mp hs
      exact sylOf_keeps ho
    · cases hs
theorem canon_issueBundle {hd : Head} {own : List (Nat × Nat × Option Nat)} (h : Canon s) : Canon (issueBundle s x hd own) :=
  canon_issue sylsOf_keep h
theorem canon_execBundleIssue {rep : Nat} {seg rdv stk : Bool} {syls : List (Nat × Nat × Option Nat)} (h : Canon s) :
    InNext Canon (execBundleIssue rep seg rdv stk syls s) := by
  unfold execBundleIssue
  split
  · exact .next h
  · exact .next (canon_issueBundle h)
theorem canon_countPage {va n : Nat} (h : Canon s) : Canon (countPage s c x va n) := by
  unfold countPage
  split
  · exact canon_exchangeBytes (canon_countVa h)
  · exact h
theorem canon_countFetch {va n : Nat} (h : Canon s) : Canon (countFetch s c x va n) :=
  canon_ite (canon_countPage (canon_countPage h)) (canon_countPage h)
theorem canon_keepPinned {off : Nat} (h : Canon s) : Canon (keepPinned s c x off) := canon_elim h fun _ => canon_modCore h
theorem canon_execDictionaryReference {rep idx : Nat} {seg rdv stk : Bool} (h : Canon s) :
    InNext Canon (execDictionaryReference rep seg rdv stk idx s) := by
  unfold execDictionaryReference
  split
  · exact .next h
  dsimp only
  split
  · exact .next h
  split
  · exact .next (canon_fetchStop h)
  · exact .next (canon_issueBundle (canon_ite h (canon_keepPinned (canon_countFetch h))))
theorem canon_openSegment (h : Canon s) : Canon (openSegment s c x) := h.same
theorem canon_idleCycle {hd : Head} {left : Nat} (h : Canon s) : Canon (idleCycle s c x hd left) := by
  unfold idleCycle
  extract_lets k s1 s2 s3 s4
  have h4 : Canon s4 := canon_settle (canon_modCtx (canon_charge (canon_ite (canon_openSegment h) h)))
  exact canon_ite (canon_modRegs h4) (canon_endIfDue (canon_complete (canon_ite (canon_commitSegment h4) h4)))
theorem canon_execIdleBundle {seg rdv : Bool} {count : Nat} (h : Canon s) : InNext Canon (execIdleBundle seg rdv count s) := by
  unfold execIdleBundle
  split
  · exact .next h
  dsimp only
  split
  · exact .next (canon_idleCycle h)
  split
  · exact .next (canon_takeCause h)
  split
  · exact .next (canon_stopBundle h)
  · exact .next (canon_idleCycle h)

/-! #### The agents (Agents) -/

theorem InNext.ite {P : State → Prop} {q : Prop} [Decidable q] {x y : Out} (hx : InNext P x) (hy : InNext P y) :
    InNext P (if q then x else y) := by
  split
  · exact hx
  · exact hy
theorem canon_slowOr {w : Slow} {f : Out} (h : Canon s) (hf : InNext Canon f) : InNext Canon (slowOr w id s f) :=
  .ite (canon_execSlowPathHandoff h) (.ite (canon_execPageRequestReply h) hf)
theorem canon_fireColl {d : CollDesc} (h : Canon s) : InNext Canon (fireColl id d s) := by
  unfold fireColl
  split
  · exact canon_execCollRegistration h
  · exact .ite (.ite (canon_execSwitchResult h) (canon_execChainPartialArrival h)) (canon_execChunkAcknowledged h)
theorem canon_fire (h : Canon s) : InNext Canon (fire s a) := by
  refine .ite (canon_execPeerAck h) ?_
  cases a.kind
  case store => exact canon_execPostedStorePerform h
  case stamp | ownStamp => exact canon_execStampWrite h
  case arrive => exact .ite (canon_execStampWrite h) (canon_execBarrierArrival h)
  case copy => exact canon_slowOr h (.ite (canon_execCopyComplete h) (canon_execTransferDataArrival h))
  case mcast => exact canon_slowOr h (.ite (canon_execTransferDataArrival h) (canon_execMcastDelivery h))
  case monRead => exact canon_execMonarmReadReturn h
  case atom => exact canon_execAtomicPerform h
  case beat => exact .ite (canon_execBeatReoffer h) (canon_execBeatArrival h)
  case credit => exact canon_execCreditReturn h
  case nmcmd => exact .ite (canon_execNmcmdComplete h) (canon_execNmcmdAccept h)
  case nmfence => exact canon_execNmfenceAnswer h
  case shalloc => exact canon_execShallocReply h
  case shfree => exact canon_execShfreeReply h
  case signal => exact canon_execBarrierArrival h
  case coll => exact canon_slowOr h (canon_fireColl h)
  case tlbinv => exact canon_execTlbinvComplete h
  case save => exact canon_execSaveComplete h
  case load => exact canon_execLoadComplete h
  case walk => exact canon_execTableWalk h
theorem canon_putOp (h : Canon s) : Canon (s.putOp a) := h.same
theorem canon_grantUnit {port : Nat} (h : Canon s) : InNext Canon (grantUnit s a port) :=
  .ite (canon_fire (canon_putOp h)) (.next (canon_putOp h))
theorem canon_execSlotGrant {port entry : Nat} (h : Canon s) : InNext Canon (execSlotGrant port entry s) := by
  refine .ite (canon_event h (.bind (.any _) fun _ _ => canon_performArrived h)) ?_
  split
  · exact canon_grantUnit h
  · exact .next h
theorem canon_moveOp (h : Canon s) : InNext Canon (moveOp id s) := by
  unfold moveOp
  split
  · exact .next h
  refine .ite (.next h) (.ite (canon_fire h) ?_)
  split
  · exact canon_execSlotGrant h
  · exact .next h

/-- An action that keeps the form of every state, whatever state it has been chosen in. -/
def ActKeeps (f : State → Out) : Prop := ∀ s, Canon s → InNext Canon (f s)

/-- The actions that one of two lists holds. -/
theorem actKeeps_append {l m : List (State → Out)} (hl : ∀ f ∈ l, ActKeeps f) (hm : ∀ f ∈ m, ActKeeps f) :
    ∀ f ∈ l ++ m, ActKeeps f :=
  List.forall_mem_append.mpr ⟨hl, hm⟩
theorem actKeeps_map {α : Type} {l : List α} {g : α → State → Out} (hg : ∀ a, ActKeeps (g a)) : ∀ f ∈ l.map g, ActKeeps f :=
  List.forall_mem_map.mpr fun a _ => hg a
theorem actKeeps_flatMap {α : Type} {l : List α} {g : α → List (State → Out)} (hg : ∀ a, ∀ f ∈ g a, ActKeeps f) :
    ∀ f ∈ l.flatMap g, ActKeeps f := by
  intro f hf
  obtain ⟨a, -, hfa⟩ := List.mem_flatMap.mp hf
  exact hg a f hfa
theorem actKeeps_filterMap {α : Type} {l : List α} {g : α → Option (State → Out)} (hg : ∀ a, InSome ActKeeps (g a)) :
    ∀ f ∈ l.filterMap g, ActKeeps f := by
  intro f hf
  obtain ⟨a, -, hfa⟩ := List.mem_filterMap.mp hf
  exact hg a f hfa

theorem dueFirst_keeps : InSome ActKeeps (dueFirst s) := fun f hf =>
  actKeeps_append (actKeeps_append
    (actKeeps_map fun _ _ h => canon_execStaticTick h)
    (actKeeps_flatMap fun _ => actKeeps_map fun _ _ h => canon_execCounterAdd h))
    (actKeeps_flatMap fun _ => actKeeps_map fun _ _ h => canon_execHeldRecordPost h) f (List.mem_of_head? hf)
theorem coreFirst_keeps : InSome ActKeeps (coreFirst s c) := by
  unfold coreFirst
  dsimp only
  split
  · exact .none
  · exact .ite (.some fun _ h => canon_execGearChangeDone h) (.ite (.some fun _ h => canon_execDeferredCauseTaken h)
      (.map (.any _) fun _ _ _ h => canon_execGearChange h))
theorem wakes_keep : ∀ f ∈ wakes s, ActKeeps f := by
  refine actKeeps_flatMap fun _ => actKeeps_filterMap fun y => .ite .none (.ite (.some fun _ h => canon_execDeferredCauseTaken h) ?_)
  split
  · refine .ite (.some ?_) .none
    split
    · exact fun _ h => canon_execIdleWake h
    · exact fun _ h => canon_execContextReady h
  · exact .none
theorem arrivals_keep : ∀ f ∈ arrivals s, ActKeeps f :=
  actKeeps_append (actKeeps_map fun _ _ h => canon_event h (canon_performArrived h))
    (actKeeps_map fun _ _ h => .next (canon_drainHeld _ h))
theorem debts_keep : ∀ f ∈ debts s, ActKeeps f := by
  unfold debts
  split
  · exact List.forall_mem_nil _
  · exact List.forall_mem_singleton.mpr fun _ h => .next (canon_catchUp h)
theorem services_keep : ∀ f ∈ services s, ActKeeps f := by
  refine actKeeps_append (actKeeps_append (actKeeps_append ?_ ?_) ?_) ?_
  · exact actKeeps_filterMap fun _ => .ite (.some fun _ h => canon_execIntakeStep h) .none
  · exact actKeeps_filterMap fun _ => .ite .none (.some fun _ h => canon_execPartStart h)
  · refine actKeeps_flatMap fun t => actKeeps_append ?_ (List.forall_mem_singleton.mpr fun _ h => canon_execTaskComplete h)
    split
    · exact List.forall_mem_nil _
    · exact List.forall_mem_singleton.mpr fun _ h => canon_execEndedCauseRecord h
  · exact actKeeps_filterMap fun _ => .ite .none (.some fun _ h => canon_execKlotyQueueRecord h)

end

section
variable {s : State} {c x : Nat}

/-! #### One step (Dispatch, Step) -/

/-- A bundle or an event of the environment keeps the form. -/
theorem canon_execEvent {i : Instr} (ho : opOf i = none) (h : Canon s) : InNext Canon (exec i s) := by
  cases i <;> cases ho
  case bundleIssue => exact canon_execBundleIssue h
  case dictionaryReference => exact canon_execDictionaryReference h
  case idleBundle => exact canon_execIdleBundle h
  case contextReady => exact canon_execContextReady h
  case heldRecordPost => exact canon_execHeldRecordPost h
  case deferredCauseTaken => exact canon_execDeferredCauseTaken h
  case transferDataArrival => exact canon_execTransferDataArrival h
  case barrierArrival => exact canon_execBarrierArrival h
  case stampWrite => exact canon_execStampWrite h
  case monarmReadReturn => exact canon_execMonarmReadReturn h
  case postedStorePerform => exact canon_execPostedStorePerform h
  case beatArrival => exact canon_execBeatArrival h
  case beatReoffer => exact canon_execBeatReoffer h
  case creditReturn => exact canon_execCreditReturn h
  case nmcmdAccept => exact canon_execNmcmdAccept h
  case nmcmdComplete => exact canon_execNmcmdComplete h
  case nmfenceAnswer => exact canon_execNmfenceAnswer h
  case copyComplete => exact canon_execCopyComplete h
  case mcastDelivery => exact canon_execMcastDelivery h
  case slowPathHandoff => exact canon_execSlowPathHandoff h
  case pageRequestReply => exact canon_execPageRequestReply h
  case atomicPerform => exact canon_execAtomicPerform h
  case shallocReply => exact canon_execShallocReply h
  case shfreeReply => exact canon_execShfreeReply h
  case shelfSwitchFailure => exact canon_execShelfSwitchFailure h
  case collRegistration => exact canon_execCollRegistration h
  case chunkAcknowledged => exact canon_execChunkAcknowledged h
  case switchResult => exact canon_execSwitchResult h
  case fallback => exact canon_execFallback h
  case intakeStep => exact canon_execIntakeStep h
  case partStart => exact canon_execPartStart h
  case taskComplete => exact canon_execTaskComplete h
  case endedCauseRecord => exact canon_execEndedCauseRecord h
  case resume => exact canon_execResume h
  case step => exact canon_execStep h
  case suspend => exact canon_execSuspend h
  case abort => exact canon_execAbort h
  case saveComplete => exact canon_execSaveComplete h
  case saveAbandon => exact canon_execSaveAbandon h
  case loadComplete => exact canon_execLoadComplete h
  case idleWake => exact canon_execIdleWake h
  case tqctlWrite => exact canon_execTqctlWrite h
  case tqconsWrite => exact canon_execTqconsWrite h
  case energywWrite => exact canon_execEnergywWrite h
  case gearwWrite => exact canon_execGearwWrite h
  case fmtctlWrite => exact canon_execFmtctlWrite h
  case registerWrite => exact canon_execRegisterWrite h
  case tableWalk => exact canon_execTableWalk h
  case counterAdd => exact canon_execCounterAdd h
  case tlbinvComplete => exact canon_execTlbinvComplete h
  case slotGrant => exact canon_execSlotGrant h
  case slotTableSwitch => exact canon_execSlotTableSwitch h
  case partitionCreate => exact canon_execPartitionCreate h
  case fabricReceive => exact canon_execFabricReceive h
  case peerAck => exact canon_execPeerAck h
  case linkUp => exact canon_execLinkUp h
  case flitReplay => exact canon_execFlitReplay h
  case linkFailure => exact canon_execLinkFailure h
  case linkRetrain => exact canon_execLinkRetrain h
  case destinationUnreachable => exact canon_execDestinationUnreachable h
  case reachableMark => exact canon_execReachableMark h
  case poisonConsumption => exact canon_execPoisonConsumption h
  case patrolScrub => exact canon_execPatrolScrub h
  case gearChange => exact canon_execGearChange h
  case gearChangeDone => exact canon_execGearChangeDone h
  case capControllerStep => exact canon_execCapControllerStep h
  case thermalHold => exact canon_execThermalHold h
  case thermalRelease => exact canon_execThermalRelease h
  case emergencySave => exact canon_execEmergencySave h
  case powerRemoval => exact canon_execPowerRemoval h
  case droopTrip => exact canon_execDroopTrip h
  case droopRecovery => exact canon_execDroopRecovery h
  case hbmFrequencyChange => exact canon_execHbmFrequencyChange h
  case retrainingPauseEnd => exact canon_execRetrainingPauseEnd h
  case ballastEstimate => exact canon_execBallastEstimate h
  case staticTick => exact canon_execStaticTick h
  case wearSwing => exact canon_execWearSwing h
  case wearFlashWrite => exact canon_execWearFlashWrite h
  case orderlyShutdown => exact canon_execOrderlyShutdown h
  case restartRestore => exact canon_execRestartRestore h
  case powerOn => exact canon_execPowerOn h
  case bootStageComplete => exact canon_execBootStageComplete h
  case fdoorSubmit => exact canon_execFdoorSubmit h
  case capsetWrite => exact canon_execCapsetWrite h
  case checkpointStart => exact canon_execCheckpointStart h
  case checkpointPeriod => exact canon_execCheckpointPeriod h
  case periodicCheckpoint => exact canon_execPeriodicCheckpoint h
  case checkpointComplete => exact canon_execCheckpointComplete h
  case attestationRequest => exact canon_execAttestationRequest h
  case attestationReportReady => exact canon_execAttestationReportReady h
  case klotyQueueRecord => exact canon_execKlotyQueueRecord h
  case hostWindowAccess => exact canon_execHostWindowAccess h
  case expanderReturn => exact canon_execExpanderReturn h
  case hbm4Refresh => exact canon_execHbm4Refresh h
  case chainPartialArrival => exact canon_execChainPartialArrival h
  case partitionChange => exact canon_execPartitionChange h
/-- What `exec` does keeps the form: a slot instruction by its operation, anything else by its own event. -/
theorem canon_exec {i : Instr} (h : Canon s) : InNext Canon (exec i s) := by
  cases ho : opOf i with
  | none => exact canon_execEvent ho h
  | some o =>
    rw [exec_eq_issueOne i o s ho]
    exact canon_slot ho h
theorem canon_runFetched {i : Instr} (h : Canon s) : InNext Canon (runFetched i s) := by
  unfold runFetched
  split
  · exact canon_exec h
  · exact canon_exec h
theorem canon_noteFetch {i : Instr} (h : Canon s) : Canon (noteFetch s c x i) := canon_ite (canon_keepPinned (canon_countFetch h)) h
theorem canon_issueStep (h : Canon s) : InNext Canon (issueStep s c x) := by
  unfold issueStep
  dsimp only
  split
  · exact .next (canon_fetchStop h)
  · exact canon_runFetched (canon_noteFetch h)
theorem canon_coreTurn (h : Canon s) : InNext Canon (coreTurn c s) := by
  unfold coreTurn
  split
  · next f hf => exact coreFirst_keeps f hf s h
  split
  · exact canon_issueStep h
  · exact .next h
/-- The first action that changes the state is one of the list. -/
theorem canon_firstMove {l : List (State → Out)} (hl : ∀ f ∈ l, ActKeeps f) (h : Canon s) : InSome Canon (firstMove s l) := by
  induction l with
  | nil => exact .none
  | cons f l ih =>
    obtain ⟨hf, hl⟩ := List.forall_mem_cons.mp hl
    unfold firstMove
    split
    · next t ht => exact .ite (ih hl) (.some (hf s h t ht))
    · exact ih hl
theorem canon_agentMove (h : Canon s) : InSome Canon (agentMove s) :=
  canon_firstMove (actKeeps_append (actKeeps_append (actKeeps_append (actKeeps_append wakes_keep
    (actKeeps_map fun _ _ h => canon_moveOp h)) arrivals_keep) debts_keep) services_keep) h
theorem canon_autoStep (h : Canon s) : InNext Canon (autoStep s) := by
  unfold autoStep
  split
  · next f hf => exact dueFirst_keeps f hf s h
  split
  · exact canon_coreTurn h.same
  · have hm : Canon ((agentMove s).getD s) := (canon_agentMove h).getD h
    exact .next hm.same
theorem InNext.fault {P : State → Prop} {f : Fault} : InNext P (.fault f) := by rintro _ ⟨⟩
theorem canon_step (h : Canon s) : InNext Canon (step s) := by
  unfold step
  split
  · exact .ite (.next h.same) (.ite (canon_exec h.same) .fault)
  · exact .ite (canon_coreTurn h.same) .fault
  · exact .ite (.next h.same) .fault
  · exact .ite (canon_autoStep h) .fault

end

/-- Settles O2: every function that answers a state keeps the form, so `exec` does, and with it every step. -/
theorem memoryCanonicalKept : Obligations.MemoryCanonicalKept := fun _ t h ht => canon_step h t ht

end Sys2Proof.Machine
